-- ==== Sys2Proof/Word.lean ====
section
/-! DEFINITION. The words of the block: unsigned integers of 8, 16, 32 and 64 bits (00_scope.md R14) and the
canonical cell list a byte space is held in. Operations over them stand in Machine/Operands.lean. -/

namespace Sys2Proof

/-- A byte: bit 7 is the most significant (R13). -/
abbrev Byte := BitVec 8

/-- `u16` of R14. -/
abbrev U16 := BitVec 16

/-- `u32` of R14. -/
abbrev U32 := BitVec 32

/-- `u64` of R14. -/
abbrev U64 := BitVec 64

/-- The contents of a byte space: (address, byte) cells, addresses strictly rising, no cell holding 0 (what an
unlisted address reads as). `Memory.wf` in Machine/Operands.lean says so. -/
abbrev Memory := List Host.Cell

end Sys2Proof
end

