-- ==== Sys2Proof/Config.lean ====
section
/-! DEFINITION. What an implementation of the block fixes: the constants of 00_scope.md R9, the parameters of R9, R11
and R12 with their defaults, and the free values (constants without a body: nothing in Lean can evaluate them). The
widths of R9 and the window of R10 stand with the wrapper's registers (Machine/State.lean). -/

namespace Sys2Proof

namespace Config

/-- Default of the width `TSN_BITS` of the wire TSN (R9). -/
abbrev TSN_BITS : Nat := 32

/-- Default of the width `EXT_BITS` of an extended sequence number (R9). -/
abbrev EXT_BITS : Nat := 64

/-- Default of `OutOfOrderWindow` (R10). -/
abbrev OUT_OF_ORDER_WINDOW : Nat := 2 ^ (TSN_BITS - 1)

/-- Bytes of the common header (R9). -/
abbrev HEADER_SIZE : Nat := 12

/-- Bytes of the chunk header, and of a TLV parameter header (R9, R97). -/
abbrev CHUNK_HEADER_SIZE : Nat := 4

/-- Padding boundary of chunks and parameters (R9). -/
abbrev ALIGN : Nat := 4

/-- The greatest number of entries of the two lists of a SACK together (43 R230, 47 R363). -/
abbrev SACK_MAX_ENTRIES : Nat := 16379

/-! Command codes, 30_encoding.md R109. -/

abbrev CMD_SET_LOCAL_PORT : Byte := 0x01
abbrev CMD_SET_REMOTE_PORT : Byte := 0x02
abbrev CMD_ASSOCIATE : Byte := 0x03
abbrev CMD_ABORT : Byte := 0x04
abbrev CMD_ENQUEUE : Byte := 0x05
abbrev CMD_WRITE_PACKET : Byte := 0x06
abbrev CMD_READ_PACKET : Byte := 0x07
abbrev CMD_GET_STATE : Byte := 0x08
abbrev CMD_GET_PENDING_DATA : Byte := 0x09
abbrev CMD_TIMER_FIRE_INIT : Byte := 0x10
abbrev CMD_TIMER_FIRE_COOKIE : Byte := 0x11
abbrev CMD_TIMER_FIRE_SACK : Byte := 0x12

/-! Free values. Each stands for a value the spec leaves to the implementation or to the environment. -/

/-- `LOCAL_ARWND` of R11, no default (log 5). -/
opaque openLocalArwnd : U32

/-- `NUM_OUTBOUND_STREAMS` of R11, no default (log 5). -/
opaque openNumOutboundStreams : U16

/-- `NUM_INBOUND_STREAMS` of R11, no default (log 5). -/
opaque openNumInboundStreams : U16

/-- `STATE_COOKIE` of R11, no default; its first 65511 bytes are used, the length bound of R11 (log 5). -/
opaque openStateCookie : List Byte

/-- Whether the host registered the pending-data callback (10 R32); no rule reads it (log 5). -/
opaque openPendingDataListener : Bool

/-- The `n`-th free verification tag less 1: every value of the full nonzero range, and no other, is possible
(46 R313; log 6). -/
opaque freeTagIndex : Nat → Fin 4294967295

/-- The `n`-th free initial TSN: any u32 (46 R313; log 6). -/
opaque freeTSN : Nat → U32

end Config

/-- The chunk kinds that have a type code of their own, in the order of 30_encoding.md R100. -/
inductive ChunkKind where
  | data
  | init
  | initAck
  | sack
  | heartbeat
  | heartbeatAck
  | abort
  | shutdown
  | shutdownAck
  | error
  | cookieEcho
  | cookieAck
  | shutdownComplete
  | reConfig
  | padding
  | forwardTSN
  deriving DecidableEq, Repr

/-- The parameter kinds that have a type code of their own, in the order of 30_encoding.md R104. -/
inductive ParamKind where
  | heartbeatInfo
  | ipv4Address
  | ipv6Address
  | stateCookie
  | cookiePreservative
  | hostName
  | supportedExtensions
  | forwardTSNSupported
  deriving DecidableEq, Repr

/-- The parameters `CT_*` and `PT_*` of the codec (R12, 92_eei_decisions.md section 1): the 16 chunk type codes and
the 8 parameter type codes. `Codes.Distinct` (Machine/Operands.lean) says what 93 U15 asks of them. -/
structure Codes where
  ctData : Byte
  ctInit : Byte
  ctInitAck : Byte
  ctSack : Byte
  ctHeartbeat : Byte
  ctHeartbeatAck : Byte
  ctAbort : Byte
  ctShutdown : Byte
  ctShutdownAck : Byte
  ctError : Byte
  ctCookieEcho : Byte
  ctCookieAck : Byte
  ctShutdownComplete : Byte
  ctReConfig : Byte
  ctPadding : Byte
  ctForwardTSN : Byte
  ptHeartbeatInfo : U16
  ptIpv4Address : U16
  ptIpv6Address : U16
  ptStateCookie : U16
  ptCookiePreservative : U16
  ptHostName : U16
  ptSupportedExtensions : U16
  ptForwardTSNSupported : U16
  deriving DecidableEq, Repr

/-- The defaults of 30_encoding.md R100 and R104. PRESUMED (log 7): the spec takes them from general knowledge. -/
def Codes.default : Codes where
  ctData := 0
  ctInit := 1
  ctInitAck := 2
  ctSack := 3
  ctHeartbeat := 4
  ctHeartbeatAck := 5
  ctAbort := 6
  ctShutdown := 7
  ctShutdownAck := 8
  ctError := 9
  ctCookieEcho := 10
  ctCookieAck := 11
  ctShutdownComplete := 14
  ctReConfig := 130
  ctPadding := 132
  ctForwardTSN := 192
  ptHeartbeatInfo := 1
  ptIpv4Address := 5
  ptIpv6Address := 6
  ptStateCookie := 7
  ptCookiePreservative := 9
  ptHostName := 11
  ptSupportedExtensions := 0x8008
  ptForwardTSNSupported := 0xC000

/-- The parameters of R9, R11 and R12 that the host fixes before the first command (70 R455) and no rule changes. -/
structure Params where
  /-- `CT_*` and `PT_*` (R12). -/
  codes : Codes
  /-- `MaxInitRetransmits` (R9). -/
  maxInitRetransmits : Nat
  /-- `InitRetransmitTimeout` in ms (R9). -/
  initRetransmitTimeout : Nat
  /-- `SackTimeout` in ms (R9). -/
  sackTimeout : Nat
  /-- `LOCAL_ARWND` (R11). -/
  localArwnd : U32
  /-- `NUM_OUTBOUND_STREAMS` (R11). -/
  numOutboundStreams : U16
  /-- `NUM_INBOUND_STREAMS` (R11). -/
  numInboundStreams : U16
  /-- `STATE_COOKIE` (R11). -/
  stateCookie : List Byte
  /-- `INIT_SUPPORTED_EXTENSIONS` (R11). -/
  initSupportedExtensions : Option (List Byte)
  /-- `INIT_FORWARD_TSN_SUPPORTED` (R11). -/
  initForwardTSNSupported : Bool
  /-- `QUEUE_MAX` (R11). -/
  queueMax : Option Nat
  /-- `VERIFY_RX_CHECKSUM` (R11). -/
  verifyRxChecksum : Bool
  /-- The callback registration, one bit of configuration that no rule reads (10 R32). -/
  pendingDataListener : Bool
  deriving DecidableEq, Repr

/-- The defaults of R9, R11 and R12; a parameter without a default is a free value (log 5). -/
def Params.default : Params where
  codes := Codes.default
  maxInitRetransmits := 10
  initRetransmitTimeout := 100
  sackTimeout := 100
  localArwnd := Config.openLocalArwnd
  numOutboundStreams := Config.openNumOutboundStreams
  numInboundStreams := Config.openNumInboundStreams
  stateCookie := Config.openStateCookie.take 65511
  initSupportedExtensions := none
  initForwardTSNSupported := false
  queueMax := none
  verifyRxChecksum := false
  pendingDataListener := Config.openPendingDataListener

end Sys2Proof
end

