-- ==== Sys2Proof/Machine/Operands.lean ====
section
/-! DEFINITION. How operands are read and written: type codes (00_scope.md R12), padding arithmetic (R14), byte order
(20_memory.md R60, R61), the byte spaces RX and TX (10_state.md R42, R43) and the reader and writer primitives of
40_buffer_codec.md. A primitive called with its precondition false answers `none`, a failed bounds assertion, never a
value (R141). -/

namespace Sys2Proof

/-! ## Type codes -/

/-- The chunk kinds with a code of their own (30_encoding.md R100). -/
def ChunkKind.all : List ChunkKind :=
  [.data, .init, .initAck, .sack, .heartbeat, .heartbeatAck, .abort, .shutdown, .shutdownAck, .error, .cookieEcho,
   .cookieAck, .shutdownComplete, .reConfig, .padding, .forwardTSN]

/-- The parameter kinds with a code of their own (30_encoding.md R104). -/
def ParamKind.all : List ParamKind :=
  [.heartbeatInfo, .ipv4Address, .ipv6Address, .stateCookie, .cookiePreservative, .hostName, .supportedExtensions,
   .forwardTSNSupported]

/-- The type code of a chunk kind (R100). -/
def Codes.chunkType (k : Codes) : ChunkKind → Byte
  | .data => k.ctData
  | .init => k.ctInit
  | .initAck => k.ctInitAck
  | .sack => k.ctSack
  | .heartbeat => k.ctHeartbeat
  | .heartbeatAck => k.ctHeartbeatAck
  | .abort => k.ctAbort
  | .shutdown => k.ctShutdown
  | .shutdownAck => k.ctShutdownAck
  | .error => k.ctError
  | .cookieEcho => k.ctCookieEcho
  | .cookieAck => k.ctCookieAck
  | .shutdownComplete => k.ctShutdownComplete
  | .reConfig => k.ctReConfig
  | .padding => k.ctPadding
  | .forwardTSN => k.ctForwardTSN

/-- The type code of a parameter kind (R104). -/
def Codes.paramType (k : Codes) : ParamKind → U16
  | .heartbeatInfo => k.ptHeartbeatInfo
  | .ipv4Address => k.ptIpv4Address
  | .ipv6Address => k.ptIpv6Address
  | .stateCookie => k.ptStateCookie
  | .cookiePreservative => k.ptCookiePreservative
  | .hostName => k.ptHostName
  | .supportedExtensions => k.ptSupportedExtensions
  | .forwardTSNSupported => k.ptForwardTSNSupported

/-- The 16 chunk type codes; every other byte is an UNKNOWN chunk (R102). -/
def Codes.chunkTypes (k : Codes) : List Byte := ChunkKind.all.map k.chunkType

/-- The 8 parameter type codes; every other type is unrecognised (R105). -/
def Codes.paramTypes (k : Codes) : List U16 := ParamKind.all.map k.paramType

/-- The codes of one kind of item are distinct from one another, as 93 U15 asks of the chunk types; the same is asked of
the parameter types (log 7). -/
def Codes.Distinct (k : Codes) : Prop := k.chunkTypes.Nodup ∧ k.paramTypes.Nodup

/-- The chunk kind a type byte names, if any (R101). -/
def Codes.chunkKindOf (k : Codes) (t : Byte) : Option ChunkKind := ChunkKind.all.find? fun x => k.chunkType x == t

/-- The parameter kind a type field names, if any (R104). -/
def Codes.paramKindOf (k : Codes) (t : U16) : Option ParamKind := ParamKind.all.find? fun x => k.paramType x == t

/-! ## Padding -/

/-- The least multiple of `ALIGN` that is at least `n` (R14 writes it with `ALIGN` = 4, R9). -/
def pad4 (n : Nat) : Nat := (n + (Config.ALIGN - 1)) - ((n + (Config.ALIGN - 1)) % Config.ALIGN)

/-- The padding bytes after `n` bytes, 0 to 3 (R14). -/
def padlen (n : Nat) : Nat := pad4 n - n

/-- `k` zero bytes (R65: padding the block writes is zero). -/
def zeros (k : Nat) : List Byte := List.replicate k 0

/-! ## Byte order -/

/-- The big-endian image of a u16 (R60). -/
def be2 (v : U16) : List Byte := [v.extractLsb' 8 8, v.extractLsb' 0 8]

/-- The big-endian image of a u32 (R60). -/
def be4 (v : U32) : List Byte :=
  [v.extractLsb' 24 8, v.extractLsb' 16 8, v.extractLsb' 8 8, v.extractLsb' 0 8]

/-- The least-significant-first image of a u32, used for the checksum alone (R61). -/
def le4 (v : U32) : List Byte :=
  [v.extractLsb' 0 8, v.extractLsb' 8 8, v.extractLsb' 16 8, v.extractLsb' 24 8]

/-- Two bytes as a big-endian u16 (00_scope.md R15). -/
def ofBe2 (a b : Byte) : U16 := a ++ b

/-- Four bytes as a big-endian u32 (R15). -/
def ofBe4 (a b c d : Byte) : U32 := (a ++ b ++ c ++ d : BitVec (8 + 8 + 8 + 8))

/-! ## Cell lists -/

/-- The byte at an address: 0 where no cell lists it (log 8). -/
def Memory.read : Memory → Nat → Byte
  | [], _ => 0
  | (k, b) :: m, a => if a = k then b else Memory.read m a

/-- One byte written, the canonical form kept: writing 0 removes the cell. -/
def Memory.write : Memory → Nat → Byte → Memory
  | [], a, b => if b = 0 then [] else [(a, b)]
  | (k, c) :: m, a, b =>
    if a < k then (if b = 0 then (k, c) :: m else (a, b) :: (k, c) :: m)
    else if a = k then (if b = 0 then m else (a, b) :: m)
    else (k, c) :: Memory.write m a b

/-- Consecutive bytes written from an address on. -/
def Memory.writeBytes (m : Memory) (a : Nat) : List Byte → Memory
  | [] => m
  | b :: bs => Memory.writeBytes (m.write a b) (a + 1) bs

/-- `n` bytes read from an address on. -/
def Memory.readBytes (m : Memory) (a : Nat) : Nat → List Byte
  | 0 => []
  | n + 1 => m.read a :: Memory.readBytes m (a + 1) n

/-- The cells of a byte string laid from an address on. -/
def Memory.ofBytes (a : Nat) : List Byte → Memory
  | [] => []
  | b :: bs => if b = 0 then Memory.ofBytes (a + 1) bs else (a, b) :: Memory.ofBytes (a + 1) bs

/-- The canonical form from an address on: addresses at least `lo`, strictly rising, no cell holding 0. -/
def Memory.wfFrom : Nat → Memory → Bool
  | _, [] => true
  | lo, (k, b) :: m => decide (lo ≤ k) && b != 0 && Memory.wfFrom (k + 1) m

/-- The canonical form. -/
def Memory.wf (m : Memory) : Bool := Memory.wfFrom 0 m

/-! ## Byte spaces -/

/-- A byte space: `size` bytes, held as a canonical cell list (10_state.md R42, R43). -/
structure Space where
  size : Nat
  mem : Memory
  deriving DecidableEq, Repr

/-- The space a host buffer is. -/
def Space.ofBytes (bs : List Byte) : Space := { size := bs.length, mem := Memory.ofBytes 0 bs }

/-- `MemReadBytes(addr, n)` of R15, bounds first (R68). -/
def Space.readBytes (sp : Space) (a n : Nat) : Option (List Byte) :=
  if a + n ≤ sp.size then some (sp.mem.readBytes a n) else none

/-- `MemWriteBytes(addr, s)` of R15, bounds first (R68). -/
def Space.writeBytes (sp : Space) (a : Nat) (bs : List Byte) : Option Space :=
  if a + bs.length ≤ sp.size then some { sp with mem := sp.mem.writeBytes a bs } else none

/-- The byte of a space at an address, for statements about memory. -/
def Space.byteAt (sp : Space) (a : Nat) : Byte := sp.mem.read a

/-- The cells of a space are canonical and lie inside it. -/
def Space.wf (sp : Space) : Bool := sp.mem.wf && sp.mem.all (fun c => decide (c.1 < sp.size))

/-! ## Reader -/

/-- A reader (R130): the cursor `p` and the bytes from the cursor to the end of its region. Its size is
`p + rest.length`. -/
structure Reader where
  p : Nat
  rest : List Byte
  deriving DecidableEq, Repr

namespace Reader

/-- A new reader on a region (R130). -/
def ofBytes (bs : List Byte) : Reader := { p := 0, rest := bs }

/-- `left` (R130). -/
def left (r : Reader) : Nat := r.rest.length

/-- The size of the region (R130). -/
def size (r : Reader) : Nat := r.p + r.rest.length

/-- `assert(n)` (R131). -/
def assert (r : Reader) (n : Nat) : Bool := decide (n ≤ r.left)

/-- `get1()` (R132). -/
def get1 (r : Reader) : Option (Byte × Reader) :=
  match r.rest with
  | a :: t => some (a, ⟨r.p + 1, t⟩)
  | _ => none

/-- `get2()` (R133). -/
def get2 (r : Reader) : Option (U16 × Reader) :=
  match r.rest with
  | a :: b :: t => some (ofBe2 a b, ⟨r.p + 2, t⟩)
  | _ => none

/-- `get4()` (R134). -/
def get4 (r : Reader) : Option (U32 × Reader) :=
  match r.rest with
  | a :: b :: c :: d :: t => some (ofBe4 a b c d, ⟨r.p + 4, t⟩)
  | _ => none

/-- `getbytes(n)` (R135). -/
def getBytes (r : Reader) (n : Nat) : Option (List Byte × Reader) :=
  if n ≤ r.left then some (r.rest.take n, ⟨r.p + n, r.rest.drop n⟩) else none

/-- `peek1(k)` (R136). -/
def peek1 (r : Reader) (k : Nat) : Option Byte := r.rest[k]?

/-- `peek2(k)` (R136). -/
def peek2 (r : Reader) (k : Nat) : Option U16 :=
  match r.rest.drop k with
  | a :: b :: _ => some (ofBe2 a b)
  | _ => none

/-- `skip(n)` (R137). -/
def skip (r : Reader) (n : Nat) : Option Reader :=
  if n ≤ r.left then some ⟨r.p + n, r.rest.drop n⟩ else none

/-- `skippad()` (R137, R65): to the next multiple of 4 counted from the region start, or to the end. -/
def skipPad (r : Reader) : Reader :=
  let k := min (padlen r.p) r.left
  ⟨r.p + k, r.rest.drop k⟩

/-- `sub(n)` (R138). -/
def sub (r : Reader) (n : Nat) : Option (Reader × Reader) :=
  if n ≤ r.left then some (ofBytes (r.rest.take n), ⟨r.p + n, r.rest.drop n⟩) else none

end Reader

/-! ## Writer -/

/-- A writer (R139): the window `T[0 .. cap-1]` of a space from offset `base` on, and its cursor. -/
structure Writer where
  space : Space
  base : Nat
  cap : Nat
  w : Nat
  deriving DecidableEq, Repr

namespace Writer

/-- A writer on a whole space. -/
def ofSpace (sp : Space) : Writer := { space := sp, base := 0, cap := sp.size, w := 0 }

/-- `room` (R139). -/
def room (wr : Writer) : Nat := wr.cap - wr.w

/-- `putbytes(s)` (R139). -/
def putBytes (wr : Writer) (s : List Byte) : Option Writer :=
  if s.length ≤ wr.room then
    (wr.space.writeBytes (wr.base + wr.w) s).map fun sp => { wr with space := sp, w := wr.w + s.length }
  else none

/-- `put1(v)` (R139). -/
def put1 (wr : Writer) (v : Byte) : Option Writer := wr.putBytes [v]

/-- `put2(v)` (R139). -/
def put2 (wr : Writer) (v : U16) : Option Writer := wr.putBytes (be2 v)

/-- `put4(v)` (R139). -/
def put4 (wr : Writer) (v : U32) : Option Writer := wr.putBytes (be4 v)

/-- `putzeros(k)` (R139). -/
def putZeros (wr : Writer) (k : Nat) : Option Writer := wr.putBytes (zeros k)

/-- `putpad()` (R139). -/
def putPad (wr : Writer) : Option Writer := wr.putZeros (padlen wr.w)

/-- `patch4le(a, v)` (R140): least significant byte first, the cursor unchanged. -/
def patch4le (wr : Writer) (a : Nat) (v : U32) : Option Writer :=
  if a + 4 ≤ wr.w then (wr.space.writeBytes (wr.base + a) (le4 v)).map fun sp => { wr with space := sp }
  else none

end Writer

end Sys2Proof
end

