-- ==== Sys2Proof/Syntax.lean ====
section
/-! DEFINITION. The instruction set as syntax: chunk records (30_encoding.md R96), the operands of a chunk and of a
TLV parameter as they stand on the wire, the command transactions of the control port (R109), and `Instr`, one
constructor per row of opcode_table.json. Meaning stands in Machine/ alone. -/

namespace Sys2Proof

/-- DATA record fields beside the flag (R96, 43 R220). -/
structure DataRec where
  tsn : U32
  streamId : U16
  streamSeq : U16
  ppid : U32
  payload : List Byte
  deriving DecidableEq, Repr

/-- The fields an INIT and an INIT-ACK record share (R96, 42 R180, R190). -/
structure InitRec where
  initiateTag : U32
  arwnd : U32
  numOutbound : U16
  numInbound : U16
  initialTSN : U32
  ipv4 : List (List Byte)
  ipv6 : List (List Byte)
  hostName : Option (List Byte)
  supportedExtensions : Option (List Byte)
  forwardTSNSupported : Bool
  unknownParams : List (U16 × List Byte)
  deriving DecidableEq, Repr

/-- SACK record fields beside the flag (R96, 43 R228). -/
structure SackRec where
  cumulativeTSNAck : U32
  arwnd : U32
  gapBlocks : List (U16 × U16)
  dupTSNs : List U32
  deriving DecidableEq, Repr

/-- The chunk record type of R96, a closed sum; every variant keeps its flag byte (R93). -/
inductive Chunk where
  | data (flag : Byte) (r : DataRec)
  | init (flag : Byte) (r : InitRec) (cookieLifeSpan : Option U32)
  | initAck (flag : Byte) (r : InitRec) (stateCookie : Option (List Byte))
  | sack (flag : Byte) (r : SackRec)
  | heartbeat (flag : Byte) (info : List Byte)
  | heartbeatAck (flag : Byte) (info : List Byte)
  | abort (flag : Byte) (causes : List Byte)
  | shutdown (flag : Byte) (cumulativeTSNAck : U32)
  | shutdownAck (flag : Byte)
  | error (flag : Byte) (causes : List Byte)
  | cookieEcho (flag : Byte) (cookie : List Byte)
  | cookieAck (flag : Byte)
  | shutdownComplete (flag : Byte)
  | reConfig (flag : Byte) (body : List Byte)
  | padding (flag : Byte) (filler : List Byte)
  | forwardTSN (flag : Byte) (body : List Byte)
  | unknown (type : Byte) (flag : Byte) (payload : List Byte)
  deriving DecidableEq, Repr

/-- A record whose TLV parameters are still being read (42 R183, 43 R237): INIT and INIT-ACK with their fixed part,
HEARTBEAT and HEARTBEAT-ACK with the info parameter once it has been read. -/
inductive Building where
  | init (flag : Byte) (r : InitRec) (cookieLifeSpan : Option U32)
  | initAck (flag : Byte) (r : InitRec) (stateCookie : Option (List Byte))
  | heartbeat (flag : Byte) (info : Option (List Byte))
  | heartbeatAck (flag : Byte) (info : Option (List Byte))
  deriving DecidableEq, Repr

/-- The operands of a chunk instruction as the decoder reads them (R92, 44 R250): the flag byte, the `length` field and
the `length - 4` body bytes. Where the length is unusable (below 4, or beyond the packet) there is no body and `body`
is empty, so `length = 4 + body.length` says exactly that the length is usable. -/
structure RawChunk where
  flag : Byte
  length : U16
  body : List Byte
  deriving DecidableEq, Repr

/-- The operands of a parameter instruction (R97): the `plength` field and the `plength - 4` value bytes, empty where
`plength` is below 4 or beyond the body. -/
structure RawParam where
  length : U16
  value : List Byte
  deriving DecidableEq, Repr

/-- The common header as a value (R91, 45 R290); `checksum` is the CRC32C number itself. -/
structure PacketHeader where
  sourcePort : U16
  destinationPort : U16
  verificationTag : U32
  checksum : U32
  deriving DecidableEq, Repr

/-- One transaction of the control port: the command code of R109 and the operand lines. DESIGN CHOICE (log 3): the
spec gives the codes and the arguments, and no layout of the arguments; each operand has a line of its own. -/
structure PortCommand where
  code : Byte
  /-- The `port` argument of SetLocalPort and SetRemotePort. -/
  port : U16
  /-- The chunk record argument of Enqueue. -/
  chunk : Chunk
  /-- The buffer argument: the RX bytes of WritePacket, or the TX bytes as the host lends them to ReadPacket. Its
  length is `rxlen`, or `capacity`. -/
  buffer : List Byte
  deriving DecidableEq, Repr

/-- What the decoder is given: the bytes from a chunk start on, the bytes from a parameter start on, or a command. -/
inductive Code where
  | chunk (bytes : List Byte)
  | param (bytes : List Byte)
  | command (c : PortCommand)
  deriving DecidableEq, Repr

/-- The instruction set: one constructor per row of opcode_table.json, chunks, then parameters, then commands. -/
inductive Instr where
  | data (c : RawChunk)
  | init (c : RawChunk)
  | initAck (c : RawChunk)
  | sack (c : RawChunk)
  | heartbeat (c : RawChunk)
  | heartbeatAck (c : RawChunk)
  | abortChunk (c : RawChunk)
  | shutdown (c : RawChunk)
  | shutdownAck (c : RawChunk)
  | error (c : RawChunk)
  | cookieEcho (c : RawChunk)
  | cookieAck (c : RawChunk)
  | shutdownComplete (c : RawChunk)
  | reConfig (c : RawChunk)
  | padding (c : RawChunk)
  | forwardTSN (c : RawChunk)
  | unknown (type : Byte) (c : RawChunk)
  | heartbeatInfo (p : RawParam)
  | ipv4Address (p : RawParam)
  | ipv6Address (p : RawParam)
  | stateCookie (p : RawParam)
  | cookiePreservative (p : RawParam)
  | hostName (p : RawParam)
  | supportedExtensions (p : RawParam)
  | forwardTSNSupported (p : RawParam)
  | unrecognisedParameter (ptype : U16) (p : RawParam)
  | setLocalPort (port : U16)
  | setRemotePort (port : U16)
  | associate
  | abort
  | enqueue (c : Chunk)
  | writePacket (rx : List Byte)
  | readPacket (tx : List Byte)
  | getState
  | getPendingData
  | timerFireInit
  | timerFireCookie
  | timerFireSack
  deriving DecidableEq, Repr

end Sys2Proof
end

