-- ==== Sys2Proof/Machine/Header.lean ====
section
/-! DEFINITION. The packet header codec and the CRC32C checksum of 45_packet_header.md. -/

namespace Sys2Proof.Machine

/-- `ParseHeader()` on the RX space (R291). -/
def parseHeader (rx : Space) : Option PacketHeader :=
  match rx.readBytes 0 Config.HEADER_SIZE with
  | some [s1, s0, d1, d0, t3, t2, t1, t0, c0, c1, c2, c3] =>
    some ⟨ofBe2 s1 s0, ofBe2 d1 d0, ofBe4 t3 t2 t1 t0, ofBe4 c3 c2 c1 c0⟩
  | _ => none

/-- `SerializeHeader(h)` (R292): the ports and the tag big-endian, the checksum least significant byte first. -/
def serializeHeader (h : PacketHeader) (wr : Writer) : Option Writer := do
  let wr ← wr.put2 h.sourcePort
  let wr ← wr.put2 h.destinationPort
  let wr ← wr.put4 h.verificationTag
  wr.putBytes (le4 h.checksum)

/-- One bit of the reflected CRC (R295). -/
def crcBit (crc : U32) : U32 := if crc.getLsbD 0 then (crc >>> 1) ^^^ 0x82F63B78 else crc >>> 1

/-- `k` bits of the CRC. -/
def crcBits : Nat → U32 → U32
  | 0, crc => crc
  | k + 1, crc => crcBits k (crcBit crc)

/-- The CRC register after a byte string. -/
def crcBytes (crc : U32) : List Byte → U32
  | [] => crc
  | x :: xs => crcBytes (crcBits 8 (crc ^^^ x.setWidth 32)) xs

/-- `CRC32C(s)` (R295). -/
def crc32c (s : List Byte) : U32 := crcBytes 0xFFFFFFFF s ^^^ 0xFFFFFFFF

/-- The test of R297: the CRC32C of the packet with its checksum bytes taken as zero is the header's checksum. -/
def checksumOk (rx : Space) (h : PacketHeader) : Bool :=
  match rx.readBytes 0 8, rx.readBytes 12 (rx.size - 12) with
  | some a, some b => crc32c (a ++ zeros 4 ++ b) == h.checksum
  | _, _ => false

end Sys2Proof.Machine
end

