-- ==== Sys2Proof/Decode.lean ====
section
/-! DEFINITION. The decoder, total on any bytes, and the encoder after it; then the chunk record codec of the files 42
to 44 (body parsers, parameter storing, serialisers, sizes, well-formedness of records). -/

namespace Sys2Proof

/-! ## Operands of a chunk and of a parameter -/

/-- The operands of the chunk whose header holds `flag` and `length` and is followed by `tail` (44 R250): the body is
there exactly when the length is usable. -/
def rawChunk (flag : Byte) (length : U16) (tail : List Byte) : RawChunk :=
  if 4 ≤ length.toNat ∧ length.toNat - 4 ≤ tail.length then ⟨flag, length, tail.take (length.toNat - 4)⟩
  else ⟨flag, length, []⟩

/-- The operands of the parameter whose header holds `length` and is followed by `tail` (42 R183). -/
def rawParam (length : U16) (tail : List Byte) : RawParam :=
  if 4 ≤ length.toNat ∧ length.toNat - 4 ≤ tail.length then ⟨length, tail.take (length.toNat - 4)⟩
  else ⟨length, []⟩

/-- The length test of 44 R250: neither below 4 nor beyond the bytes that are left. -/
def RawChunk.lengthUsable (c : RawChunk) : Bool := c.length.toNat == 4 + c.body.length

/-- The two length tests of 42 R183. -/
def RawParam.lengthUsable (p : RawParam) : Bool := p.length.toNat == 4 + p.value.length

/-! ## Decoder -/

/-- The chunk instruction of a kind. -/
def Instr.ofChunk (c : RawChunk) : ChunkKind → Instr
  | .data => .data c
  | .init => .init c
  | .initAck => .initAck c
  | .sack => .sack c
  | .heartbeat => .heartbeat c
  | .heartbeatAck => .heartbeatAck c
  | .abort => .abortChunk c
  | .shutdown => .shutdown c
  | .shutdownAck => .shutdownAck c
  | .error => .error c
  | .cookieEcho => .cookieEcho c
  | .cookieAck => .cookieAck c
  | .shutdownComplete => .shutdownComplete c
  | .reConfig => .reConfig c
  | .padding => .padding c
  | .forwardTSN => .forwardTSN c

/-- The parameter instruction of a kind. -/
def Instr.ofParam (p : RawParam) : ParamKind → Instr
  | .heartbeatInfo => .heartbeatInfo p
  | .ipv4Address => .ipv4Address p
  | .ipv6Address => .ipv6Address p
  | .stateCookie => .stateCookie p
  | .cookiePreservative => .cookiePreservative p
  | .hostName => .hostName p
  | .supportedExtensions => .supportedExtensions p
  | .forwardTSNSupported => .forwardTSNSupported p

/-- Decode selection of R101: the row of R100 whose type equals the type byte, no other bit looked at. -/
def selectChunk (k : Codes) (t : Byte) (c : RawChunk) : Instr :=
  match k.chunkKindOf t with
  | some kind => Instr.ofChunk c kind
  | none => .unknown t c

/-- The row of R104 whose `ptype` equals the type field; whether the chunk accepts the kind is the instruction's
business (42 R184). -/
def selectParam (k : Codes) (t : U16) (p : RawParam) : Instr :=
  match k.paramKindOf t with
  | some kind => Instr.ofParam p kind
  | none => .unrecognisedParameter t p

/-- Why a code is no instruction. -/
inductive DecodeError where
  /-- Fewer than the 4 bytes of a chunk or parameter header (R107, 42 R183). No fetch gives such a code. -/
  | truncated
  /-- A command code that is in no row of R109. -/
  | unknownCommand (code : Byte)
  deriving DecidableEq, Repr

/-- The row of R109 whose code equals the command's code. -/
def decodeCommand (c : PortCommand) : Except DecodeError Instr :=
  if c.code = Config.CMD_SET_LOCAL_PORT then .ok (.setLocalPort c.port)
  else if c.code = Config.CMD_SET_REMOTE_PORT then .ok (.setRemotePort c.port)
  else if c.code = Config.CMD_ASSOCIATE then .ok .associate
  else if c.code = Config.CMD_ABORT then .ok .abort
  else if c.code = Config.CMD_ENQUEUE then .ok (.enqueue c.chunk)
  else if c.code = Config.CMD_WRITE_PACKET then .ok (.writePacket c.buffer)
  else if c.code = Config.CMD_READ_PACKET then .ok (.readPacket c.buffer)
  else if c.code = Config.CMD_GET_STATE then .ok .getState
  else if c.code = Config.CMD_GET_PENDING_DATA then .ok .getPendingData
  else if c.code = Config.CMD_TIMER_FIRE_INIT then .ok .timerFireInit
  else if c.code = Config.CMD_TIMER_FIRE_COOKIE then .ok .timerFireCookie
  else if c.code = Config.CMD_TIMER_FIRE_SACK then .ok .timerFireSack
  else .error (.unknownCommand c.code)

/-- The decoder. A chunk takes its type, flag and length from its first 4 bytes (R92), a parameter its type and length
(R97); every such header is an instruction (R102, R105). `k` holds the type codes (R12). -/
def decode (k : Codes) : Code → Except DecodeError Instr
  | .chunk (t :: f :: l1 :: l0 :: tail) => .ok (selectChunk k t (rawChunk f (ofBe2 l1 l0) tail))
  | .chunk _ => .error .truncated
  | .param (t1 :: t0 :: l1 :: l0 :: tail) => .ok (selectParam k (ofBe2 t1 t0) (rawParam (ofBe2 l1 l0) tail))
  | .param _ => .error .truncated
  | .command c => decodeCommand c

/-! ## Encoder -/

/-- The bytes of a chunk: header, body, padding (R92, R94, R95). -/
def encodeChunk (t : Byte) (c : RawChunk) : Code :=
  .chunk (t :: c.flag :: (be2 c.length ++ (c.body ++ zeros (padlen c.length.toNat))))

/-- The bytes of a parameter: header, value, padding (R97). -/
def encodeParam (t : U16) (p : RawParam) : Code :=
  .param (be2 t ++ (be2 p.length ++ (p.value ++ zeros (padlen p.length.toNat))))

/-- A code as it stands in a packet or a body, with other bytes after it. -/
def Code.followedBy : Code → List Byte → Code
  | .chunk bytes, more => .chunk (bytes ++ more)
  | .param bytes, more => .param (bytes ++ more)
  | .command c, _ => .command c

/-- The type code of R100 and the operands of a chunk instruction. -/
def Instr.chunkOperands (k : Codes) : Instr → Option (Byte × RawChunk)
  | .data c => some (k.chunkType .data, c)
  | .init c => some (k.chunkType .init, c)
  | .initAck c => some (k.chunkType .initAck, c)
  | .sack c => some (k.chunkType .sack, c)
  | .heartbeat c => some (k.chunkType .heartbeat, c)
  | .heartbeatAck c => some (k.chunkType .heartbeatAck, c)
  | .abortChunk c => some (k.chunkType .abort, c)
  | .shutdown c => some (k.chunkType .shutdown, c)
  | .shutdownAck c => some (k.chunkType .shutdownAck, c)
  | .error c => some (k.chunkType .error, c)
  | .cookieEcho c => some (k.chunkType .cookieEcho, c)
  | .cookieAck c => some (k.chunkType .cookieAck, c)
  | .shutdownComplete c => some (k.chunkType .shutdownComplete, c)
  | .reConfig c => some (k.chunkType .reConfig, c)
  | .padding c => some (k.chunkType .padding, c)
  | .forwardTSN c => some (k.chunkType .forwardTSN, c)
  | .unknown t c => some (t, c)
  | .heartbeatInfo _ | .ipv4Address _ | .ipv6Address _ | .stateCookie _ | .cookiePreservative _ | .hostName _
  | .supportedExtensions _ | .forwardTSNSupported _ | .unrecognisedParameter _ _ => none
  | .setLocalPort _ | .setRemotePort _ | .associate | .abort | .enqueue _ | .writePacket _ | .readPacket _
  | .getState | .getPendingData | .timerFireInit | .timerFireCookie | .timerFireSack => none

/-- The type code of R104 and the operands of a parameter instruction. -/
def Instr.paramOperands (k : Codes) : Instr → Option (U16 × RawParam)
  | .heartbeatInfo p => some (k.paramType .heartbeatInfo, p)
  | .ipv4Address p => some (k.paramType .ipv4Address, p)
  | .ipv6Address p => some (k.paramType .ipv6Address, p)
  | .stateCookie p => some (k.paramType .stateCookie, p)
  | .cookiePreservative p => some (k.paramType .cookiePreservative, p)
  | .hostName p => some (k.paramType .hostName, p)
  | .supportedExtensions p => some (k.paramType .supportedExtensions, p)
  | .forwardTSNSupported p => some (k.paramType .forwardTSNSupported, p)
  | .unrecognisedParameter t p => some (t, p)
  | .data _ | .init _ | .initAck _ | .sack _ | .heartbeat _ | .heartbeatAck _ | .abortChunk _ | .shutdown _
  | .shutdownAck _ | .error _ | .cookieEcho _ | .cookieAck _ | .shutdownComplete _ | .reConfig _ | .padding _
  | .forwardTSN _ | .unknown _ _ => none
  | .setLocalPort _ | .setRemotePort _ | .associate | .abort | .enqueue _ | .writePacket _ | .readPacket _
  | .getState | .getPendingData | .timerFireInit | .timerFireCookie | .timerFireSack => none

/-- The code of R109 of a command. -/
def Instr.commandCode : Instr → Option Byte
  | .setLocalPort _ => some 0x01
  | .setRemotePort _ => some 0x02
  | .associate => some 0x03
  | .abort => some 0x04
  | .enqueue _ => some 0x05
  | .writePacket _ => some 0x06
  | .readPacket _ => some 0x07
  | .getState => some 0x08
  | .getPendingData => some 0x09
  | .timerFireInit => some 0x10
  | .timerFireCookie => some 0x11
  | .timerFireSack => some 0x12
  | .data _ | .init _ | .initAck _ | .sack _ | .heartbeat _ | .heartbeatAck _ | .abortChunk _ | .shutdown _
  | .shutdownAck _ | .error _ | .cookieEcho _ | .cookieAck _ | .shutdownComplete _ | .reConfig _ | .padding _
  | .forwardTSN _ | .unknown _ _ => none
  | .heartbeatInfo _ | .ipv4Address _ | .ipv6Address _ | .stateCookie _ | .cookiePreservative _ | .hostName _
  | .supportedExtensions _ | .forwardTSNSupported _ | .unrecognisedParameter _ _ => none

/-- The record on the operand line of a command that takes none. -/
def Chunk.blank : Chunk := .data 0 ⟨0, 0, 0, 0, []⟩

/-- A transaction with every operand line zero. -/
def PortCommand.plain (code : Byte) : PortCommand := ⟨code, 0, Chunk.blank, []⟩

/-- The code of an instruction, from the tables R100, R104 and R109. -/
def encode (k : Codes) : Instr → Code
  | .data c => encodeChunk (k.chunkType .data) c
  | .init c => encodeChunk (k.chunkType .init) c
  | .initAck c => encodeChunk (k.chunkType .initAck) c
  | .sack c => encodeChunk (k.chunkType .sack) c
  | .heartbeat c => encodeChunk (k.chunkType .heartbeat) c
  | .heartbeatAck c => encodeChunk (k.chunkType .heartbeatAck) c
  | .abortChunk c => encodeChunk (k.chunkType .abort) c
  | .shutdown c => encodeChunk (k.chunkType .shutdown) c
  | .shutdownAck c => encodeChunk (k.chunkType .shutdownAck) c
  | .error c => encodeChunk (k.chunkType .error) c
  | .cookieEcho c => encodeChunk (k.chunkType .cookieEcho) c
  | .cookieAck c => encodeChunk (k.chunkType .cookieAck) c
  | .shutdownComplete c => encodeChunk (k.chunkType .shutdownComplete) c
  | .reConfig c => encodeChunk (k.chunkType .reConfig) c
  | .padding c => encodeChunk (k.chunkType .padding) c
  | .forwardTSN c => encodeChunk (k.chunkType .forwardTSN) c
  | .unknown t c => encodeChunk t c
  | .heartbeatInfo p => encodeParam (k.paramType .heartbeatInfo) p
  | .ipv4Address p => encodeParam (k.paramType .ipv4Address) p
  | .ipv6Address p => encodeParam (k.paramType .ipv6Address) p
  | .stateCookie p => encodeParam (k.paramType .stateCookie) p
  | .cookiePreservative p => encodeParam (k.paramType .cookiePreservative) p
  | .hostName p => encodeParam (k.paramType .hostName) p
  | .supportedExtensions p => encodeParam (k.paramType .supportedExtensions) p
  | .forwardTSNSupported p => encodeParam (k.paramType .forwardTSNSupported) p
  | .unrecognisedParameter t p => encodeParam t p
  | .setLocalPort v => .command { PortCommand.plain Config.CMD_SET_LOCAL_PORT with port := v }
  | .setRemotePort v => .command { PortCommand.plain Config.CMD_SET_REMOTE_PORT with port := v }
  | .associate => .command (PortCommand.plain Config.CMD_ASSOCIATE)
  | .abort => .command (PortCommand.plain Config.CMD_ABORT)
  | .enqueue c => .command { PortCommand.plain Config.CMD_ENQUEUE with chunk := c }
  | .writePacket rx => .command { PortCommand.plain Config.CMD_WRITE_PACKET with buffer := rx }
  | .readPacket tx => .command { PortCommand.plain Config.CMD_READ_PACKET with buffer := tx }
  | .getState => .command (PortCommand.plain Config.CMD_GET_STATE)
  | .getPendingData => .command (PortCommand.plain Config.CMD_GET_PENDING_DATA)
  | .timerFireInit => .command (PortCommand.plain Config.CMD_TIMER_FIRE_INIT)
  | .timerFireCookie => .command (PortCommand.plain Config.CMD_TIMER_FIRE_COOKIE)
  | .timerFireSack => .command (PortCommand.plain Config.CMD_TIMER_FIRE_SACK)

/-! ## Table words -/

/-- The bytes of an instruction numbered as opcode_table.json numbers it: 32-bit big-endian words, the first word in
bits 31..0, every further byte 0 (R92, R110). -/
def tableBytes (w n : Nat) : List Byte :=
  (List.range n).map fun i => BitVec.ofNat 8 (w >>> (32 * (i / 4) + 8 * (3 - i % 4)))

/-- Whether a 32-bit word is read as a parameter header. DESIGN CHOICE (log 15): chunk rows and parameter rows share the
32-bit words and nothing in a word tells them apart; the row that fixes more bits is taken, except that 0xC000 is
FORWARD-TSN-SUPPORTED only with its one legal `plength`, 4, and else a FORWARD-TSN chunk. -/
def tableWordIsParam (w : Nat) : Bool :=
  match Codes.default.paramKindOf (BitVec.ofNat 16 (w >>> 16)) with
  | some .forwardTSNSupported => decide (w % 65536 = 4)
  | some _ => true
  | none => false

/-- The code a table word is: a command for 8 bits, else a chunk or a parameter, as long as its length field says. -/
def tableCode (nbits w : Nat) : Code :=
  if nbits ≤ 8 then .command (PortCommand.plain (BitVec.ofNat 8 w))
  else
    let n := max (nbits / 8) (max 4 (pad4 (w % 65536)))
    if tableWordIsParam w then .param (tableBytes w n) else .chunk (tableBytes w n)

/-- The instruction the decoder reads from a table word, all bits above `nbits` zero. The table's codes are the defaults
of R100 and R104 (log 15). -/
def decodeTableWord (nbits w : Nat) : Option Instr := (decode Codes.default (tableCode nbits w)).toOption

/-- The record a parameter word is read into: a HEARTBEAT for its info, an INIT-ACK for a state cookie, else an INIT. -/
def tableBuilding (bytes : List Byte) : Building :=
  let blank : InitRec := ⟨0, 0, 0, 0, 0, [], [], none, none, false, []⟩
  match bytes with
  | 0 :: 1 :: _ => .heartbeat 0 none
  | 0 :: 7 :: _ => .initAck 0 blank none
  | _ => .init 0 blank none

/-! ## Storing a parameter (42 R184, 43 R237) -/

/-- The parameter kept verbatim (R105); a HEARTBEAT keeps no foreign parameter (43 R237). -/
def keepUnrecognised (t : U16) (v : List Byte) : Building → Option Building
  | .init f r life => some (.init f { r with unknownParams := r.unknownParams ++ [(t, v)] } life)
  | .initAck f r ck => some (.initAck f { r with unknownParams := r.unknownParams ++ [(t, v)] } ck)
  | .heartbeat _ _ => none
  | .heartbeatAck _ _ => none

/-- HEARTBEAT-INFO: the one parameter of a HEARTBEAT or HEARTBEAT-ACK (43 R237); unrecognised elsewhere. -/
def storeHeartbeatInfo (k : Codes) (v : List Byte) : Building → Option Building
  | .heartbeat f none => some (.heartbeat f (some v))
  | .heartbeatAck f none => some (.heartbeatAck f (some v))
  | b => keepUnrecognised (k.paramType .heartbeatInfo) v b

/-- IPV4-ADDRESS: exactly 4 bytes, appended. -/
def storeIpv4 (v : List Byte) : Building → Option Building
  | .init f r life => if v.length = 4 then some (.init f { r with ipv4 := r.ipv4 ++ [v] } life) else none
  | .initAck f r ck => if v.length = 4 then some (.initAck f { r with ipv4 := r.ipv4 ++ [v] } ck) else none
  | .heartbeat _ _ => none
  | .heartbeatAck _ _ => none

/-- IPV6-ADDRESS: exactly 16 bytes, appended. -/
def storeIpv6 (v : List Byte) : Building → Option Building
  | .init f r life => if v.length = 16 then some (.init f { r with ipv6 := r.ipv6 ++ [v] } life) else none
  | .initAck f r ck => if v.length = 16 then some (.initAck f { r with ipv6 := r.ipv6 ++ [v] } ck) else none
  | .heartbeat _ _ => none
  | .heartbeatAck _ _ => none

/-- STATE-COOKIE: any length, INIT-ACK only; unrecognised in an INIT. -/
def storeStateCookie (k : Codes) (v : List Byte) : Building → Option Building
  | .initAck f r _ => some (.initAck f r (some v))
  | b => keepUnrecognised (k.paramType .stateCookie) v b

/-- COOKIE-PRESERVATIVE: a u32, INIT only; unrecognised in an INIT-ACK. -/
def storeCookiePreservative (k : Codes) (v : List Byte) : Building → Option Building
  | .init f r _ =>
    match v with
    | [a, b, c, d] => some (.init f r (some (ofBe4 a b c d)))
    | _ => none
  | b => keepUnrecognised (k.paramType .cookiePreservative) v b

/-- HOST-NAME: any length, the later one kept. -/
def storeHostName (v : List Byte) : Building → Option Building
  | .init f r life => some (.init f { r with hostName := some v } life)
  | .initAck f r ck => some (.initAck f { r with hostName := some v } ck)
  | .heartbeat _ _ => none
  | .heartbeatAck _ _ => none

/-- SUPPORTED-EXTENSIONS: the list of the value's bytes, the later one kept. -/
def storeSupportedExtensions (v : List Byte) : Building → Option Building
  | .init f r life => some (.init f { r with supportedExtensions := some v } life)
  | .initAck f r ck => some (.initAck f { r with supportedExtensions := some v } ck)
  | .heartbeat _ _ => none
  | .heartbeatAck _ _ => none

/-- FORWARD-TSN-SUPPORTED: an empty value. -/
def storeForwardTSNSupported (v : List Byte) : Building → Option Building
  | .init f r life => if v = [] then some (.init f { r with forwardTSNSupported := true } life) else none
  | .initAck f r ck => if v = [] then some (.initAck f { r with forwardTSNSupported := true } ck) else none
  | .heartbeat _ _ => none
  | .heartbeatAck _ _ => none

/-- `StoreParam(kind, r, t, v)` of 42 R184, with the HEARTBEAT test of 43 R237. -/
def storeParam (k : Codes) (t : U16) (v : List Byte) (b : Building) : Option Building :=
  match k.paramKindOf t with
  | some .heartbeatInfo => storeHeartbeatInfo k v b
  | some .ipv4Address => storeIpv4 v b
  | some .ipv6Address => storeIpv6 v b
  | some .stateCookie => storeStateCookie k v b
  | some .cookiePreservative => storeCookiePreservative k v b
  | some .hostName => storeHostName v b
  | some .supportedExtensions => storeSupportedExtensions v b
  | some .forwardTSNSupported => storeForwardTSNSupported v b
  | none => keepUnrecognised t v b

/-- The chunk a record becomes when its body is used up: a HEARTBEAT needs its one parameter (43 R237). -/
def Building.close : Building → Option Chunk
  | .init f r life => some (.init f r life)
  | .initAck f r ck => some (.initAck f r ck)
  | .heartbeat f info => info.map (.heartbeat f)
  | .heartbeatAck f info => info.map (.heartbeatAck f)

/-- The kind of the chunk being assembled. -/
def Building.kind : Building → ChunkKind
  | .init _ _ _ => .init
  | .initAck _ _ _ => .initAck
  | .heartbeat _ _ => .heartbeat
  | .heartbeatAck _ _ => .heartbeatAck

/-- The type byte of the chunk being assembled. -/
def Building.typeCode (k : Codes) (b : Building) : Byte := k.chunkType b.kind

/-! ## Body parsers: `Parse(flag, b)` -/

/-- 43 R221. -/
def parseData (flag : Byte) (b : List Byte) : Option Chunk :=
  if b.length < 12 then none
  else do
    let (tsn, rd) ← (Reader.ofBytes b).get4
    let (sid, rd) ← rd.get2
    let (ssn, rd) ← rd.get2
    let (ppid, rd) ← rd.get4
    let (payload, _) ← rd.getBytes rd.left
    some (.data flag ⟨tsn, sid, ssn, ppid, payload⟩)

/-- The 16-byte fixed part of INIT and INIT-ACK (42 R180, R181), and the body after it. -/
def parseInitFixed (b : List Byte) : Option (InitRec × List Byte) :=
  if b.length < 16 then none
  else do
    let (tag, rd) ← (Reader.ofBytes b).get4
    let (arwnd, rd) ← rd.get4
    let (out, rd) ← rd.get2
    let (inb, rd) ← rd.get2
    let (itsn, rd) ← rd.get4
    some (⟨tag, arwnd, out, inb, itsn, [], [], none, none, false, []⟩, rd.rest)

/-- The start of an INIT: its fixed part read, no parameter yet (42 R181). -/
def openInit (flag : Byte) (b : List Byte) : Option (Building × List Byte) :=
  (parseInitFixed b).map fun (r, tail) => (.init flag r none, tail)

/-- The start of an INIT-ACK (42 R191). -/
def openInitAck (flag : Byte) (b : List Byte) : Option (Building × List Byte) :=
  (parseInitFixed b).map fun (r, tail) => (.initAck flag r none, tail)

/-- The start of a HEARTBEAT: at least a parameter header must be there (43 R237). -/
def openHeartbeat (flag : Byte) (b : List Byte) : Option (Building × List Byte) :=
  if b.length < 4 then none else some (.heartbeat flag none, b)

/-- The start of a HEARTBEAT-ACK (43 R240). -/
def openHeartbeatAck (flag : Byte) (b : List Byte) : Option (Building × List Byte) :=
  if b.length < 4 then none else some (.heartbeatAck flag none, b)

/-- The parameter loop of 42 R183, on fuel; the block itself runs it one parameter a step (log 2). -/
def parseParams (k : Codes) : Nat → Building → Reader → Option Chunk
  | 0, _, _ => none
  | fuel + 1, b, rd =>
    if rd.left = 0 then b.close
    else
      match rd.rest with
      | t1 :: t0 :: l1 :: l0 :: tail =>
        let p := rawParam (ofBe2 l1 l0) tail
        if p.lengthUsable then
          match storeParam k (ofBe2 t1 t0) p.value b, rd.skip (4 + p.value.length) with
          | some b', some rd' => parseParams k fuel b' rd'.skipPad
          | _, _ => none
        else none
      | _ => none

/-- A body of TLV parameters parsed to its end. -/
def parseParamList (k : Codes) (start : Option (Building × List Byte)) : Option Chunk :=
  match start with
  | none => none
  | some (b, tail) => parseParams k (tail.length + 1) b (Reader.ofBytes tail)

/-- The `n` gap blocks of a SACK in wire order (43 R229). -/
def parseGaps : Nat → Reader → Option (List (U16 × U16) × Reader)
  | 0, rd => some ([], rd)
  | n + 1, rd => do
    let (s, rd) ← rd.get2
    let (e, rd) ← rd.get2
    let (gs, rd) ← parseGaps n rd
    some ((s, e) :: gs, rd)

/-- The `m` duplicate TSNs of a SACK in wire order (43 R229). -/
def parseDups : Nat → Reader → Option (List U32 × Reader)
  | 0, rd => some ([], rd)
  | m + 1, rd => do
    let (d, rd) ← rd.get4
    let (ds, rd) ← parseDups m rd
    some (d :: ds, rd)

/-- 43 R229. -/
def parseSack (flag : Byte) (b : List Byte) : Option Chunk :=
  if b.length < 12 then none
  else do
    let (cum, rd) ← (Reader.ofBytes b).get4
    let (a, rd) ← rd.get4
    let (n, rd) ← rd.get2
    let (m, rd) ← rd.get2
    if rd.left ≠ 4 * n.toNat + 4 * m.toNat then none
    else do
      let (gaps, rd) ← parseGaps n.toNat rd
      let (dups, _) ← parseDups m.toNat rd
      some (.sack flag ⟨cum, a, gaps, dups⟩)

/-- 44 R264: exactly 4 bytes. -/
def parseShutdown (flag : Byte) (b : List Byte) : Option Chunk :=
  if b.length ≠ 4 then none
  else do
    let (cum, _) ← (Reader.ofBytes b).get4
    some (.shutdown flag cum)

/-- A header-only chunk: the body must be empty (42 R205, 44 R267, R268). -/
def parseEmpty (r : Chunk) (b : List Byte) : Option Chunk := if b = [] then some r else none

/-- The body parser selection of `ParseChunk` (44 R250). -/
def parseBody (k : Codes) (t flag : Byte) (b : List Byte) : Option Chunk :=
  match k.chunkKindOf t with
  | some .data => parseData flag b
  | some .init => parseParamList k (openInit flag b)
  | some .initAck => parseParamList k (openInitAck flag b)
  | some .sack => parseSack flag b
  | some .heartbeat => parseParamList k (openHeartbeat flag b)
  | some .heartbeatAck => parseParamList k (openHeartbeatAck flag b)
  | some .abort => some (.abort flag b)
  | some .shutdown => parseShutdown flag b
  | some .shutdownAck => parseEmpty (.shutdownAck flag) b
  | some .error => some (.error flag b)
  | some .cookieEcho => some (.cookieEcho flag b)
  | some .cookieAck => parseEmpty (.cookieAck flag) b
  | some .shutdownComplete => parseEmpty (.shutdownComplete flag) b
  | some .reConfig => some (.reConfig flag b)
  | some .padding => some (.padding flag b)
  | some .forwardTSN => some (.forwardTSN flag b)
  | none => some (.unknown t flag b)

/-- `ParseChunk` of 44 R250 at the start of a byte string: the record, if any, and the offset of the next chunk. -/
def parseChunk (k : Codes) (bytes : List Byte) : Option Chunk × Nat :=
  match bytes with
  | t :: f :: l1 :: l0 :: tail =>
    let c := rawChunk f (ofBe2 l1 l0) tail
    if c.lengthUsable then (parseBody k t f c.body, min (pad4 c.length.toNat) bytes.length)
    else (none, bytes.length)
  | _ => (none, bytes.length)

/-- A variant's parser as an entry point of its own, at the start of a byte string: another type byte than the expected
one is rejected (R101). -/
def parseEntry (k : Codes) (expected : Byte) (bytes : List Byte) : Option Chunk :=
  match bytes with
  | t :: _ => if t = expected then (parseChunk k bytes).1 else none
  | [] => none

/-! ## Serialisers, sizes and well-formed records -/

/-- The type byte of a record (R100). -/
def Chunk.typeCode (k : Codes) : Chunk → Byte
  | .data _ _ => k.chunkType .data
  | .init _ _ _ => k.chunkType .init
  | .initAck _ _ _ => k.chunkType .initAck
  | .sack _ _ => k.chunkType .sack
  | .heartbeat _ _ => k.chunkType .heartbeat
  | .heartbeatAck _ _ => k.chunkType .heartbeatAck
  | .abort _ _ => k.chunkType .abort
  | .shutdown _ _ => k.chunkType .shutdown
  | .shutdownAck _ => k.chunkType .shutdownAck
  | .error _ _ => k.chunkType .error
  | .cookieEcho _ _ => k.chunkType .cookieEcho
  | .cookieAck _ => k.chunkType .cookieAck
  | .shutdownComplete _ => k.chunkType .shutdownComplete
  | .reConfig _ _ => k.chunkType .reConfig
  | .padding _ _ => k.chunkType .padding
  | .forwardTSN _ _ => k.chunkType .forwardTSN
  | .unknown t _ _ => t

/-- The flag byte of a record (R93). -/
def Chunk.flag : Chunk → Byte
  | .data f _ | .init f _ _ | .initAck f _ _ | .sack f _ | .heartbeat f _ | .heartbeatAck f _ | .abort f _
  | .shutdown f _ | .shutdownAck f | .error f _ | .cookieEcho f _ | .cookieAck f | .shutdownComplete f
  | .reConfig f _ | .padding f _ | .forwardTSN f _ | .unknown _ f _ => f

/-- `ParamList(r)` of 42 R185, the canonical order; `life` is the INIT line, `ck` the INIT-ACK line. -/
def paramList (k : Codes) (r : InitRec) (life : Option U32) (ck : Option (List Byte)) : List (U16 × List Byte) :=
  r.ipv4.map (fun a => (k.paramType .ipv4Address, a))
  ++ r.ipv6.map (fun a => (k.paramType .ipv6Address, a))
  ++ r.hostName.toList.map (fun h => (k.paramType .hostName, h))
  ++ life.toList.map (fun n => (k.paramType .cookiePreservative, be4 n))
  ++ ck.toList.map (fun c => (k.paramType .stateCookie, c))
  ++ r.supportedExtensions.toList.map (fun e => (k.paramType .supportedExtensions, e))
  ++ (if r.forwardTSNSupported then [(k.paramType .forwardTSNSupported, [])] else [])
  ++ r.unknownParams

/-- `Tlv(t, v)` of 42 R185. -/
def tlv (p : U16 × List Byte) : List Byte :=
  be2 p.1 ++ (be2 (BitVec.ofNat 16 (4 + p.2.length)) ++ (p.2 ++ zeros (padlen p.2.length)))

/-- The parameters written one after the other. -/
def tlvs (ps : List (U16 × List Byte)) : List Byte := ps.flatMap tlv

/-- `lastpad` of 42 R185: the padding of the last parameter. -/
def lastPad (ps : List (U16 × List Byte)) : Nat :=
  match ps.getLast? with
  | some p => padlen p.2.length
  | none => 0

/-- The fixed part of INIT and INIT-ACK as written (42 R185). -/
def initFixedImage (r : InitRec) : List Byte :=
  be4 r.initiateTag ++ (be4 r.arwnd ++ (be2 r.numOutbound ++ (be2 r.numInbound ++ be4 r.initialTSN)))

/-- The body of an INIT or INIT-ACK as written, its last padding included (42 R185). -/
def initBodyImage (r : InitRec) (ps : List (U16 × List Byte)) : List Byte := initFixedImage r ++ tlvs ps

/-- The `length` field the serialiser of a record writes, as a natural number (R94, 42 R185, R202, R206, 43 R223, R230,
R238, 44 R258, R265). -/
def Chunk.length (k : Codes) : Chunk → Nat
  | .data _ r => 16 + r.payload.length
  | .init _ r life => 4 + (initBodyImage r (paramList k r life none)).length - lastPad (paramList k r life none)
  | .initAck _ r ck => 4 + (initBodyImage r (paramList k r none ck)).length - lastPad (paramList k r none ck)
  | .sack _ r => 16 + 4 * r.gapBlocks.length + 4 * r.dupTSNs.length
  | .heartbeat _ info | .heartbeatAck _ info => 8 + info.length
  | .shutdown _ _ => 8
  | .shutdownAck _ | .cookieAck _ | .shutdownComplete _ => 4
  | .abort _ x | .error _ x | .cookieEcho _ x | .reConfig _ x | .padding _ x | .forwardTSN _ x
  | .unknown _ _ x => 4 + x.length

/-- `GetSize(rec)` (44 R256). -/
def Chunk.size (k : Codes) (c : Chunk) : Nat := pad4 (c.length k)

/-- The types `StoreParam` accepts in an INIT (42 R184). -/
def initParamTypes (k : Codes) : List U16 :=
  [k.paramType .ipv4Address, k.paramType .ipv6Address, k.paramType .cookiePreservative, k.paramType .hostName,
   k.paramType .supportedExtensions, k.paramType .forwardTSNSupported]

/-- The types `StoreParam` accepts in an INIT-ACK (42 R184). -/
def initAckParamTypes (k : Codes) : List U16 :=
  [k.paramType .ipv4Address, k.paramType .ipv6Address, k.paramType .stateCookie, k.paramType .hostName,
   k.paramType .supportedExtensions, k.paramType .forwardTSNSupported]

/-- The conditions of 42 R186 on the parameters of an INIT or INIT-ACK; `accepted` is what `StoreParam` accepts. -/
def InitRec.paramsWf (r : InitRec) (accepted : List U16) (ps : List (U16 × List Byte)) : Bool :=
  r.ipv4.all (fun a => a.length == 4)
  && r.ipv6.all (fun a => a.length == 16)
  && r.unknownParams.all (fun p => !accepted.contains p.1)
  && ps.all (fun p => decide (p.2.length ≤ 65531))

/-- `WF(rec)`: 42 R186, R202, R206; 43 R223, R230, R238; 44 R258, R265, R267, R268, R279. -/
def Chunk.wf (k : Codes) (c : Chunk) : Bool :=
  match c with
  | .data _ r => decide (r.payload.length ≤ 65519)
  | .init _ r life => r.paramsWf (initParamTypes k) (paramList k r life none) && decide (c.length k ≤ 65535)
  | .initAck _ r ck => r.paramsWf (initAckParamTypes k) (paramList k r none ck) && decide (c.length k ≤ 65535)
  | .sack _ r => decide (r.gapBlocks.length + r.dupTSNs.length ≤ Config.SACK_MAX_ENTRIES)
  | .heartbeat _ info | .heartbeatAck _ info => decide (info.length ≤ 65527)
  | .shutdown _ _ | .shutdownAck _ | .cookieAck _ | .shutdownComplete _ => true
  | .abort _ x | .error _ x | .cookieEcho _ x | .reConfig _ x | .padding _ x | .forwardTSN _ x =>
    decide (x.length ≤ 65531)
  | .unknown t _ x => decide (x.length ≤ 65531) && !k.chunkTypes.contains t

/-- A body followed by the zero padding of its chunk (R95). -/
def padded (x : List Byte) : List Byte := x ++ zeros (padlen (4 + x.length))

/-- What the serialiser of a record writes after the chunk header. The last parameter's padding of an INIT or INIT-ACK
serves as the chunk's padding (42 R185); a SACK, a SHUTDOWN and the header-only chunks have none. -/
def Chunk.afterHeader (k : Codes) : Chunk → List Byte
  | .data _ r => padded (be4 r.tsn ++ (be2 r.streamId ++ (be2 r.streamSeq ++ (be4 r.ppid ++ r.payload))))
  | .init _ r life => initBodyImage r (paramList k r life none)
  | .initAck _ r ck => initBodyImage r (paramList k r none ck)
  | .sack _ r =>
    be4 r.cumulativeTSNAck ++ (be4 r.arwnd ++ (be2 (BitVec.ofNat 16 r.gapBlocks.length)
      ++ (be2 (BitVec.ofNat 16 r.dupTSNs.length)
      ++ (r.gapBlocks.flatMap (fun g => be2 g.1 ++ be2 g.2) ++ r.dupTSNs.flatMap be4))))
  | .heartbeat _ info | .heartbeatAck _ info =>
    padded (be2 (k.paramType .heartbeatInfo) ++ (be2 (BitVec.ofNat 16 (4 + info.length)) ++ info))
  | .shutdown _ cum => be4 cum
  | .shutdownAck _ | .cookieAck _ | .shutdownComplete _ => []
  | .abort _ x | .error _ x | .cookieEcho _ x | .reConfig _ x | .padding _ x | .forwardTSN _ x
  | .unknown _ _ x => padded x

/-- The bytes the serialiser of a record emits: chunk header, body, padding (R92, R95, 42 to 44). -/
def Chunk.image (k : Codes) (c : Chunk) : List Byte :=
  c.typeCode k :: c.flag :: (be2 (BitVec.ofNat 16 (c.length k)) ++ c.afterHeader k)

/-- `Serialize(rec, writer)` of 44 R255: the writer after it and the bytes written, 0 on failure. -/
def serialize (k : Codes) (c : Chunk) (wr : Writer) : Option (Writer × Nat) :=
  if c.wf k = false ∨ wr.room < c.size k then some (wr, 0)
  else (wr.putBytes (c.image k)).map fun wr' => (wr', c.size k)

end Sys2Proof
end

