-- ==== Sys2Proof/Machine/State.lean ====
section
/-! DEFINITION. The state of the association as plain data (10_state.md), the reasons a step can stop, and the state
after reset. -/

namespace Sys2Proof.Machine

/-- The association state register (R24), in the order of its numeric encoding. The five shutdown names are encodable
and never written (00_scope.md R7). -/
inductive AssocState where
  | closed
  | cookieWait
  | cookieEchoed
  | established
  | shutdownPending
  | shutDownSent
  | shutDownReceived
  | shutDown
  | shutDownAckSent
  deriving DecidableEq, Repr

/-- The three timer slots (R27). -/
inductive TimerId where
  | init
  | cookie
  | sack
  deriving DecidableEq, Repr

/-- What a timer slot holds; the duration is in milliseconds (R27). -/
inductive Slot where
  | idle
  | armed (d : Nat)
  deriving DecidableEq, Repr

/-- `timer[INIT]`, `timer[COOKIE]`, `timer[SACK]` (R27). -/
structure Timers where
  init : Slot
  cookie : Slot
  sack : Slot
  deriving DecidableEq, Repr

/-- The registers of a SequenceNumberWrapper of narrow width `n` and extended width `e` (R25, 41 R160, R161). -/
structure SeqWrapper (n e : Nat) where
  cycles : BitVec (e - n)
  maxSeqNum : BitVec n
  maxExtSeqNum : BitVec e
  deriving DecidableEq, Repr

/-- The one wrapper of the association, for the received TSN (R25): the parameters of 00 R9 and R10, fixed with the
instance, and its registers. -/
structure TsnWrapper where
  /-- `TSN_BITS` (R9); constant. -/
  tsnBits : Nat
  /-- `EXT_BITS` (R9); constant. -/
  extBits : Nat
  /-- `OutOfOrderWindow` (R10); constant. -/
  outOfOrderWindow : Nat
  /-- `W.cycles`, `W.maxSeqNum`, `W.maxExtSeqNum`. -/
  regs : SeqWrapper tsnBits extBits
  deriving DecidableEq, Repr

/-- Output events (R47). -/
inductive Event where
  | pendingData
  | timerArm (i : TimerId) (d : Nat)
  | timerCancel (i : TimerId)
  | dataIndication (c : Chunk)
  deriving DecidableEq, Repr

/-- Why Enqueue refuses a record (60 R400, code 9). -/
inductive EnqueueReason where
  | notWellFormed
  | queueFull
  deriving DecidableEq, Repr

/-- The errors of 60 R400 that enter the log, codes 1 to 12, each with the information the table records. Code 13 is
`Fault.bufferOverrun`. -/
inductive LogEntry where
  | truncatedHeader (rxlen : Nat)
  | portMismatch (source destination : U16)
  | tagMismatch (tag : U32)
  | checksumMismatch (checksum : U32)
  | chunkLengthInvalid (pc : Nat) (type : Byte) (length : U16)
  | chunkBodyMalformed (pc : Nat) (type : Byte)
  | stateViolation (state : AssocState) (type : Byte)
  | retryCeiling (slot : TimerId)
  | enqueueRefused (reason : EnqueueReason) (type : Byte)
  | commandIgnored (code : Byte)
  | gapOffsetOverflow (s e l : U64)
  | timerIgnored (slot : TimerId) (state : AssocState)
  deriving DecidableEq, Repr

/-- What a command returns to its caller (30_encoding.md R109). -/
inductive Result where
  | bool (b : Bool)
  | length (n : Nat)
  | state (st : AssocState)
  deriving DecidableEq, Repr

/-- A record being assembled from its parameters (42 R183): the record so far, the reader on the parameters that are
left, and the offset of the following chunk. -/
structure ParamList where
  building : Building
  reader : Reader
  next : Nat
  deriving DecidableEq, Repr

/-- The WritePacket in progress: the RX space (R42), the parse cursor `pc` (R40), and the parameter list that is open,
if any. -/
structure Ingress where
  rx : Space
  pc : Nat
  params : Option ParamList
  deriving DecidableEq, Repr

/-- Why the machine stops with a fault. -/
inductive Fault where
  /-- Error 13 of 60 R400: a buffer primitive called beyond its bounds (40 R141). Raised by a parameter instruction
  whose value is longer than the parameter list that is open, and by ReadPacket if a record's image did not fit; no
  step reaches either. Safe: the machine stops where the spec says nothing happens. -/
  | bufferOverrun (offset size : Nat)
  deriving DecidableEq, Repr

/-- Why an instruction has no meaning. -/
inductive Refusal where
  /-- An instruction that has no meaning in the model yet, raised by an arm of `exec`. Safe: nothing is claimed. -/
  | notModelled (mnemonic : String)
  /-- A code that is no instruction, raised by `step` for a command code outside 30_encoding.md R109 (log 12). Safe: the
  spec gives such a code no meaning. -/
  | undecodable (e : DecodeError)
  /-- A command executed while a WritePacket is in progress, raised by every command's meaning; no step fetches one
  then. Safe: 20_memory.md R74 and 93 U6, "the model has no step for a second operation" (log 11). -/
  | overlappingOperation
  /-- A chunk instruction executed where no chunk is fetched, raised by every chunk's meaning; no step does so. Safe:
  `pc` and the RX space exist only inside a WritePacket (R40; log 13). -/
  | chunkOutsidePacket
  /-- A parameter instruction executed while no parameter list is open, raised by every parameter's meaning; no step
  does so. Safe: as above (log 13). -/
  | parameterOutsideChunk
  deriving DecidableEq, Repr

/-- The whole machine. -/
structure State where
  /-- The parameters of 00_scope.md R9, R11 and R12; constant. -/
  params : Params
  /-- R20. -/
  localPort : U16
  /-- R20. -/
  remotePort : U16
  /-- R21. -/
  localVerificationTag : U32
  /-- R21. -/
  remoteVerificationTag : U32
  /-- R22. -/
  localInitialTSN : U32
  /-- R23. -/
  lastReceivedTSN : U64
  /-- R23. -/
  lastReceivedTSNValid : Bool
  /-- R24. -/
  state : AssocState
  /-- R25, the wrapper `W`. -/
  wrapper : TsnWrapper
  /-- R26. -/
  initRetransmissions : Nat
  /-- R27. -/
  timers : Timers
  /-- R28. -/
  pendingAcknowledge : Bool
  /-- R28, milliseconds. -/
  pendingAcknowledgeTimeout : Nat
  /-- R29. -/
  pendingData : Bool
  /-- R30. -/
  terminated : Bool
  /-- R31. -/
  peerCookie : List Byte
  /-- R44, head first. -/
  queue : List Chunk
  /-- R45, ascending, equal elements adjacent. -/
  receivedTSNs : List U64
  /-- R47, oldest first. -/
  events : List Event
  /-- R48, oldest first. -/
  log : List LogEntry
  /-- The WritePacket in progress (R40, R42), none between operations. -/
  ingress : Option Ingress
  /-- The TX space of the last ReadPacket (R43). -/
  tx : Space
  /-- R41: the write cursor's final value in the last ReadPacket (log 9). -/
  wp : Nat
  /-- The commands and timer fires still to come, next one first (R310, R420; log 1). -/
  port : List PortCommand
  /-- What the commands returned, oldest first (log 10). -/
  results : List Result
  /-- The random source's next values (46 R312; log 6). -/
  draws : List U32
  /-- How many free values have been drawn (log 6). -/
  freeDraws : Nat
  deriving DecidableEq, Repr

/-- The state after reset (R58, 70_reset_and_hazards.md R450, R451): the creation of the association. -/
def State.reset : State where
  params := Params.default
  localPort := 0
  remotePort := 0
  localVerificationTag := 0
  remoteVerificationTag := 0
  localInitialTSN := 0
  lastReceivedTSN := 0
  lastReceivedTSNValid := false
  state := .closed
  wrapper := ⟨Config.TSN_BITS, Config.EXT_BITS, Config.OUT_OF_ORDER_WINDOW, ⟨0, 0, 0⟩⟩
  initRetransmissions := 0
  timers := ⟨.idle, .idle, .idle⟩
  pendingAcknowledge := false
  pendingAcknowledgeTimeout := 0
  pendingData := false
  terminated := false
  peerCookie := []
  queue := []
  receivedTSNs := []
  events := []
  log := []
  ingress := none
  tx := ⟨0, []⟩
  wp := 0
  port := []
  results := []
  draws := []
  freeDraws := 0

end Sys2Proof.Machine
end

