-- ==== Sys2Proof/Machine/Flags.lean ====
section
/-! DEFINITION. The flag computations of the block: the DATA flag views (43 R222), the gap scan (47 R360), the
acknowledgement decision (R358) and the numeric views of the state register (10 R24). -/

namespace Sys2Proof.Machine

/-- `U(r) = r.flag[2]` (43 R222). -/
def flagU (flag : Byte) : Bool := flag.getLsbD 2

/-- `B(r) = r.flag[1]`. -/
def flagB (flag : Byte) : Bool := flag.getLsbD 1

/-- `E(r) = r.flag[0]`. -/
def flagE (flag : Byte) : Bool := flag.getLsbD 0

/-- The flag byte built from the three bits (43 R222). -/
def dataFlag (u b e : Bool) : Byte := BitVec.ofNat 8 (u.toNat * 4 + b.toNat * 2 + e.toNat)

/-- `HasGap(M)` on the ascending list of a multiset (47 R360). -/
def hasGap : List U64 → Bool
  | a :: b :: rest => decide (b.toNat - a.toNat > 1) || hasGap (b :: rest)
  | _ => false

/-- The timeout a DATA chunk decides on (47 R358): 0 asks for an acknowledgement at the end of the packet. -/
def ackTimeout (first gap dup armed : Bool) (sackTimeout : Nat) : Nat :=
  if first || gap || dup || armed then 0 else sackTimeout

/-- Whether a slot is armed (10 R27). -/
def Slot.isArmed : Slot → Bool
  | .idle => false
  | .armed _ => true

/-- The number GetState gives a state (10 R24). -/
def AssocState.code : AssocState → Nat
  | .closed => 0
  | .cookieWait => 1
  | .cookieEchoed => 2
  | .established => 3
  | .shutdownPending => 4
  | .shutDownSent => 5
  | .shutDownReceived => 6
  | .shutDown => 7
  | .shutDownAckSent => 8

/-- The error codes of 60 R400. -/
def LogEntry.code : LogEntry → Nat
  | .truncatedHeader _ => 1
  | .portMismatch _ _ => 2
  | .tagMismatch _ => 3
  | .checksumMismatch _ => 4
  | .chunkLengthInvalid _ _ _ => 5
  | .chunkBodyMalformed _ _ => 6
  | .stateViolation _ _ => 7
  | .retryCeiling _ => 8
  | .enqueueRefused _ _ => 9
  | .commandIgnored _ => 10
  | .gapOffsetOverflow _ _ _ => 11
  | .timerIgnored _ _ => 12

end Sys2Proof.Machine
end

