-- ==== Sys2Proof/Machine/Ops.lean ====
section
/-! DEFINITION. The named operations over the state: events, timers, draws, taking an error and resuming after it
(60_exceptions.md R400, R431), Enqueue (46 R316), and moving through a packet (44 R250 to R253). -/

namespace Sys2Proof.Machine

/-- The outcome of a step of this machine. -/
abbrev Outcome := Host.Outcome State Fault Refusal

namespace State

/-! ## Outputs -/

/-- `emit Ev(args)` (00 R15, 10 R47). -/
def emit (e : Event) (s : State) : State := { s with events := s.events ++ [e] }

/-- A command's result handed to its caller (46 R310). -/
def answer (r : Result) (s : State) : State := { s with results := s.results ++ [r] }

/-! ## Timers -/

/-- `A.timer[i]`. -/
def timer (s : State) : TimerId → Slot
  | .init => s.timers.init
  | .cookie => s.timers.cookie
  | .sack => s.timers.sack

/-- `A.timer[i] <- v`. -/
def setTimer (i : TimerId) (v : Slot) (s : State) : State :=
  match i with
  | .init => { s with timers := { s.timers with init := v } }
  | .cookie => { s with timers := { s.timers with cookie := v } }
  | .sack => { s with timers := { s.timers with sack := v } }

/-- `Arm(i, d)` (10 R27). -/
def arm (i : TimerId) (d : Nat) (s : State) : State := (s.setTimer i (.armed d)).emit (.timerArm i d)

/-- `Cancel(i)` (10 R27): nothing on an idle slot. -/
def cancel (i : TimerId) (s : State) : State :=
  if (s.timer i).isArmed then (s.setTimer i .idle).emit (.timerCancel i) else s

/-! ## Draws -/

/-- A free verification tag, any value of the nonzero range (46 R313; log 6). -/
def freeTag (n : Nat) : U32 := BitVec.ofNat 32 ((Config.freeTagIndex n).val + 1)

/-- `draw u32 (v != 0)` (46 R313, decision D7): the next value of the random source that is not 0; a free value where
the injected values are used up. -/
def drawTag (s : State) : U32 × State :=
  match s.draws.dropWhile (fun v => v == 0) with
  | v :: rest => (v, { s with draws := rest })
  | [] => (freeTag s.freeDraws, { s with draws := [], freeDraws := s.freeDraws + 1 })

/-- `draw u32 (any value)` (46 R313). -/
def drawTSN (s : State) : U32 × State :=
  match s.draws with
  | v :: rest => (v, { s with draws := rest })
  | [] => (Config.freeTSN s.freeDraws, { s with freeDraws := s.freeDraws + 1 })

/-- The two draws of `Associate` and of an INIT in Closed, tag first (decision D7): the local tag and the local initial
TSN written. -/
def drawLocalIdentity (s : State) : State :=
  let (tag, s) := s.drawTag
  let (tsn, s) := s.drawTSN
  { s with localVerificationTag := tag, localInitialTSN := tsn }

/-! ## Taking an error -/

/-- `A.log` extended by one error. -/
def raise (e : LogEntry) (s : State) : State := { s with log := s.log ++ [e] }

/-- The parse cursor moved to the next chunk, no parameter list open: the way on after a chunk, and the return from an
error in one (60 R431, 44 R252). -/
def resumeAt (pc : Nat) (s : State) : State :=
  { s with ingress := s.ingress.map fun g => { g with pc := pc, params := none } }

/-- The rest of the packet dropped: the cursor at its end (44 R251). -/
def dropRest (s : State) : State :=
  { s with ingress := s.ingress.map fun g => { g with pc := g.rx.size, params := none } }

end State

/-- What the block does after logging an error: the effect column of 60 R400. -/
inductive Recovery where
  /-- The item is ignored and the operation goes on (codes 7 to 12). -/
  | goOn
  /-- The packet is rejected: WritePacket returns false (codes 1 to 4). -/
  | rejectPacket
  /-- This chunk and the rest of the packet are dropped (code 5). -/
  | dropRest
  /-- This chunk is skipped, parsing goes on at an offset (code 6). -/
  | skipTo (pc : Nat)
  deriving DecidableEq, Repr

/-- `raise E(info)` (00 R15, 60 R400): the error enters the log and its recovery is taken. This is the one way an error
is taken; nothing is saved, no mode changes and there is no handler address (R431). -/
def State.takeError (e : LogEntry) (r : Recovery) (s : State) : State :=
  match r with
  | .goOn => s.raise e
  | .rejectPacket => (s.raise e).answer (.bool false)
  | .dropRest => (s.raise e).dropRest
  | .skipTo pc => (s.raise e).resumeAt pc

namespace State

/-! ## Enqueue -/

/-- Why `Enqueue(c)` refuses a record in a state that is not terminated (46 R316). -/
def enqueueRefusal (c : Chunk) (s : State) : Option EnqueueReason :=
  if c.wf s.params.codes = false then some .notWellFormed
  else
    match s.params.queueMax with
    | some q => if q ≤ s.queue.length then some .queueFull else none
    | none => none

/-- A record put at the tail of the queue; the empty to non-empty edge sets the flag and emits the event (R316). -/
def append (c : Chunk) (s : State) : State :=
  if s.queue = [] then { s with queue := [c], pendingData := true, events := s.events ++ [.pendingData] }
  else { s with queue := s.queue ++ [c] }

/-- `Enqueue(c)` (46 R316): its result and the state after it. -/
def enqueueResult (c : Chunk) (s : State) : Bool × State :=
  if s.terminated then (false, s)
  else
    match s.enqueueRefusal c with
    | some reason => (false, s.takeError (.enqueueRefused reason (c.typeCode s.params.codes)) .goOn)
    | none => (true, s.append c)

/-- `Enqueue(c)` called by a rule of the block, which goes on whatever it returns (R316). -/
def enqueue (c : Chunk) (s : State) : State := (s.enqueueResult c).2

end State

/-! ## Where an instruction may run -/

/-- A command runs only between operations (20 R74, 46 R310). -/
def betweenOperations (s : State) (k : Outcome) : Outcome :=
  match s.ingress with
  | none => k
  | some _ => .refused .overlappingOperation

end Sys2Proof.Machine
end

