-- ==== Sys2Proof/Machine/Wrapper.lean ====
section
/-! DEFINITION. The SequenceNumberWrapper of 41_seqnum_wrapper.md, for any widths and window (R160); the block has one,
for the received TSN. -/

namespace Sys2Proof.Machine

/-- The value R10 and 41 R160 give `OutOfOrderWindow` for a narrow width. -/
def outOfOrderWindow (n : Nat) : Nat := 2 ^ (n - 1)

/-- The cycle count `Wrap` gives a raw value: next cycle, previous cycle or current cycle (R162 (a), (b), (c)). -/
def wrapCycle (cycles maxSeqNum raw win : Nat) : Nat :=
  if raw < maxSeqNum ∧ maxSeqNum - raw > win then cycles + 1
  else if raw > maxSeqNum ∧ raw - maxSeqNum > win ∧ cycles > 0 then cycles - 1
  else cycles

/-- `Wrap(raw)` (R162) with the window `win`: the extended value, and the registers after it. -/
def SeqWrapper.wrap {n e : Nat} (win : Nat) (w : SeqWrapper n e) (raw : BitVec n) : BitVec e × SeqWrapper n e :=
  let c := wrapCycle w.cycles.toNat w.maxSeqNum.toNat raw.toNat win
  let ext : BitVec e := BitVec.ofNat e (c * 2 ^ n + raw.toNat)
  if ext.toNat > w.maxExtSeqNum.toNat then (ext, ⟨BitVec.ofNat _ c, raw, ext⟩) else (ext, w)

/-- `Wrap` fed a sequence of raw values, one after the other (R168): the extended values. -/
def SeqWrapper.wrapAll {n e : Nat} (win : Nat) (w : SeqWrapper n e) : List (BitVec n) → List (BitVec e)
  | [] => []
  | raw :: rest => (w.wrap win raw).1 :: (w.wrap win raw).2.wrapAll win rest

/-- `UnWrap(ext)` (R164): the low `n` bits. -/
def unWrap (n : Nat) {e : Nat} (ext : BitVec e) : BitVec n := ext.setWidth n

/-- `Wrap` on the TSN of a DATA chunk (47 R358). The TSN field has 32 bits (43 R220) and an extended value 64 (10 R45);
at the default widths nothing is widened or cut (log 23). -/
def TsnWrapper.wrapTSN (w : TsnWrapper) (tsn : U32) : U64 × TsnWrapper :=
  let r := w.regs.wrap w.outOfOrderWindow (tsn.setWidth w.tsnBits)
  (r.1.setWidth 64, { w with regs := r.2 })

/-- `UnWrap` on an extended number, as a TSN field of a SACK (47 R362; log 23). -/
def TsnWrapper.unWrapTSN (w : TsnWrapper) (ext : U64) : U32 := (unWrap w.tsnBits ext).setWidth 32

end Sys2Proof.Machine
end

