-- ==== Sys2Proof/Machine/Tracker.lean ====
section
/-! DEFINITION. The gap and duplicate tracker: multiset insertion (10 R45), `Acknowledge` (47 R362) and the limits of a
SACK (R363). Arithmetic is on the natural numbers of the 64-bit extended values (R367). -/

namespace Sys2Proof.Machine

/-- Multiset insertion into the ascending list (10 R45, 47 R358). -/
def insertTSN (t : U64) : List U64 → List U64
  | [] => [t]
  | a :: rest => if t.toNat ≤ a.toNat then t :: a :: rest else a :: insertTSN t rest

/-- The variables of the walk of 47 R362. -/
structure AckWalk where
  l : U64
  openBlock : Option (U64 × U64)
  gaps : List (U64 × U64)
  dups : List U64
  deriving DecidableEq, Repr

/-- One element of the walk (47 R362). -/
def AckWalk.step (k : AckWalk) (t : U64) : AckWalk :=
  match k.openBlock with
  | none =>
    if t.toNat ≤ k.l.toNat then { k with dups := k.dups ++ [t] }
    else if t.toNat = k.l.toNat + 1 then { k with l := t }
    else { k with openBlock := some (t, t) }
  | some (s, e) =>
    if t = e then { k with dups := k.dups ++ [t] }
    else if t.toNat = e.toNat + 1 then { k with openBlock := some (s, t) }
    else { k with gaps := k.gaps ++ [(s, e)], openBlock := some (t, t) }

/-- The block still open after the walk, closed (47 R362). -/
def AckWalk.finish (k : AckWalk) : AckWalk :=
  match k.openBlock with
  | none => k
  | some b => { k with openBlock := none, gaps := k.gaps ++ [b] }

/-- The whole walk from a cumulative point. -/
def ackWalk (l : U64) (ts : List U64) : AckWalk := (ts.foldl AckWalk.step ⟨l, none, [], []⟩).finish

/-- A gap block as 16-bit offsets from the cumulative point (47 R362, R363). -/
def gapOffsets (l : U64) (b : U64 × U64) : U16 × U16 :=
  (BitVec.ofNat 16 (b.1.toNat - l.toNat), BitVec.ofNat 16 (b.2.toNat - l.toNat))

/-- The errors of 47 R363: one for each block that ends more than 65535 above the cumulative point. -/
def gapOverflows (l : U64) (gaps : List (U64 × U64)) : List LogEntry :=
  (gaps.filter fun b => decide (b.2.toNat - l.toNat > 65535)).map fun b => .gapOffsetOverflow b.1 b.2 l

/-- `Truncate(G, D)` (47 R363): at most 16379 entries, duplicates dropped first, each list from its end (log 19). -/
def truncateSack (g : List (U16 × U16)) (d : List U32) : List (U16 × U16) × List U32 :=
  (g.take Config.SACK_MAX_ENTRIES, d.take (Config.SACK_MAX_ENTRIES - g.length))

/-- The SACK record of a finished walk (47 R362). -/
def buildSack (w : TsnWrapper) (arwnd : U32) (k : AckWalk) : Chunk :=
  let gd := truncateSack (k.gaps.map (gapOffsets k.l)) (k.dups.map w.unWrapTSN)
  .sack 0 ⟨w.unWrapTSN k.l, arwnd, gd.1, gd.2⟩

/-- The part of `Acknowledge` after the walk: the cumulative point and the multiset updated, the SACK enqueued
(47 R362). -/
def State.reportWalk (k : AckWalk) (s : State) : State :=
  let s := { s with
    lastReceivedTSN := k.l
    lastReceivedTSNValid := true
    receivedTSNs := s.receivedTSNs.filter fun t => decide (k.l.toNat < t.toNat) }
  let s := (gapOverflows k.l k.gaps).foldl (fun s e => s.takeError e .goOn) s
  s.enqueue (buildSack s.wrapper s.params.localArwnd k)

/-- The end of `Acknowledge`: the SACK timer cancelled, the flag cleared (47 R362). -/
def State.endAcknowledge (s : State) : State := { s.cancel .sack with pendingAcknowledge := false }

/-- `Acknowledge()` (47 R362). -/
def State.acknowledge (s : State) : State :=
  if s.lastReceivedTSNValid then (s.reportWalk (ackWalk s.lastReceivedTSN s.receivedTSNs)).endAcknowledge
  else
    match s.receivedTSNs with
    | [] => s.endAcknowledge
    | l :: ts => (s.reportWalk (ackWalk l ts)).endAcknowledge

end Sys2Proof.Machine
end

