-- ==== Sys2Proof/Machine/Process.lean ====
section
/-! DEFINITION. `Process`: what the block does with a decoded chunk record in each state (47_association_dispatch.md
R350 to R359, R365). -/

namespace Sys2Proof.Machine

/-- `BuildInit()` (46 R317). -/
def buildInit (s : State) : Chunk :=
  .init 0 ⟨s.localVerificationTag, s.params.localArwnd, s.params.numOutboundStreams, s.params.numInboundStreams,
    s.localInitialTSN, [], [], none, s.params.initSupportedExtensions, s.params.initForwardTSNSupported, []⟩ none

/-- `BuildInitAck()` (47 R351). -/
def buildInitAck (s : State) : Chunk :=
  .initAck 0 ⟨s.localVerificationTag, s.params.localArwnd, s.params.numOutboundStreams, s.params.numInboundStreams,
    s.localInitialTSN, [], [], none, s.params.initSupportedExtensions, s.params.initForwardTSNSupported, []⟩
    (some s.params.stateCookie)

/-- A chunk without a row in R350: logged, nothing else (R365). -/
def ignoreChunk (c : Chunk) (s : State) : State :=
  s.takeError (.stateViolation s.state (c.typeCode s.params.codes)) .goOn

/-- INIT received in Closed (R352). -/
def processInit (r : InitRec) (s : State) : State :=
  let s := { s with remoteVerificationTag := r.initiateTag }
  let s := s.drawLocalIdentity
  s.enqueue (buildInitAck s)

/-- COOKIE-ECHO received in Closed (R353). -/
def processCookieEcho (s : State) : State := { s.enqueue (.cookieAck 0) with state := .established }

/-- INIT-ACK received in CookieWait, with its state cookie (R354). -/
def processInitAck (r : InitRec) (cookie : List Byte) (s : State) : State :=
  let s := s.cancel .init
  let s := { s with remoteVerificationTag := r.initiateTag, peerCookie := cookie, initRetransmissions := 0 }
  let s := s.enqueue (.cookieEcho 0 cookie)
  let s := s.arm .cookie s.params.initRetransmitTimeout
  { s with state := .cookieEchoed }

/-- COOKIE-ACK received in CookieEchoed (R356). -/
def processCookieAck (s : State) : State := { s.cancel .cookie with state := .established }

/-- DATA received in Established (R358, R359). -/
def processData (flag : Byte) (r : DataRec) (s : State) : State :=
  let first := !s.lastReceivedTSNValid
  let tw := s.wrapper.wrapTSN r.tsn
  let dup := s.receivedTSNs.contains tw.1
  let m := insertTSN tw.1 s.receivedTSNs
  let timeout := ackTimeout first (hasGap m) dup s.timers.sack.isArmed s.params.sackTimeout
  { s with
    wrapper := tw.2
    receivedTSNs := m
    pendingAcknowledgeTimeout := timeout
    pendingAcknowledge := true
    events := s.events ++ [.dataIndication (.data flag r)] }

/-- `Process(r)` (R350): dispatch on the state and the variant; every other pair is ignored (R365). -/
def process (c : Chunk) (s : State) : State :=
  match c with
  | .init _ r _ => if s.state = .closed then processInit r s else ignoreChunk c s
  | .cookieEcho _ _ => if s.state = .closed then processCookieEcho s else ignoreChunk c s
  | .initAck _ r ck =>
    if s.state = .cookieWait then
      match ck with
      | none => ignoreChunk c s
      | some cookie => processInitAck r cookie s
    else ignoreChunk c s
  | .cookieAck _ => if s.state = .cookieEchoed then processCookieAck s else ignoreChunk c s
  | .data flag r => if s.state = .established then processData flag r s else ignoreChunk c s
  | .sack _ _ => ignoreChunk c s
  | .heartbeat _ _ => ignoreChunk c s
  | .heartbeatAck _ _ => ignoreChunk c s
  | .abort _ _ => ignoreChunk c s
  | .shutdown _ _ => ignoreChunk c s
  | .shutdownAck _ => ignoreChunk c s
  | .error _ _ => ignoreChunk c s
  | .shutdownComplete _ => ignoreChunk c s
  | .reConfig _ _ => ignoreChunk c s
  | .padding _ _ => ignoreChunk c s
  | .forwardTSN _ _ => ignoreChunk c s
  | .unknown _ _ _ => ignoreChunk c s

end Sys2Proof.Machine
end

