-- ==== Sys2Proof/Machine/Commands.lean ====
section
/-! DEFINITION. The host's commands (46_association_commands.md). -/

namespace Sys2Proof.Machine

/-- The ports may be written: not terminated, Closed, and no local tag yet (R311). -/
def State.portsWritable (s : State) : Bool := !s.terminated && s.state == .closed && s.localVerificationTag == 0

/-- SetLocalPort (R311). -/
def execSetLocalPort (port : U16) (s : State) : Outcome :=
  betweenOperations s <|
    if s.portsWritable then .next { s with localPort := port }
    else .next (s.takeError (.commandIgnored Config.CMD_SET_LOCAL_PORT) .goOn)

/-- SetRemotePort (R311). -/
def execSetRemotePort (port : U16) (s : State) : Outcome :=
  betweenOperations s <|
    if s.portsWritable then .next { s with remotePort := port }
    else .next (s.takeError (.commandIgnored Config.CMD_SET_REMOTE_PORT) .goOn)

/-- The active open of R313, in Closed. -/
def State.associate (s : State) : State :=
  let s := s.drawLocalIdentity
  let s := { s with initRetransmissions := 0 }
  let s := s.enqueue (buildInit s)
  let s := s.arm .init s.params.initRetransmitTimeout
  { s with state := .cookieWait }

/-- Associate (R313). -/
def execAssociate (s : State) : Outcome :=
  betweenOperations s <|
    if s.terminated = true ∨ s.state ≠ .closed then .next (s.takeError (.commandIgnored Config.CMD_ASSOCIATE) .goOn)
    else .next s.associate

/-- Abort (R314). -/
def execAbort (s : State) : Outcome :=
  betweenOperations s <|
    if s.terminated then .next s
    else
      .next { ((s.cancel .init).cancel .cookie).cancel .sack with
        queue := []
        pendingData := false
        pendingAcknowledge := false
        state := .closed
        terminated := true }

/-- Enqueue (R316). -/
def execEnqueue (c : Chunk) (s : State) : Outcome :=
  betweenOperations s <| .next ((s.enqueueResult c).2.answer (.bool (s.enqueueResult c).1))

/-- The first test of R320 a packet fails, as the error it raises. -/
def headerError (rx : Space) (s : State) : Option LogEntry :=
  match parseHeader rx with
  | none => some (.truncatedHeader rx.size)
  | some h =>
    if h.sourcePort ≠ s.remotePort ∨ h.destinationPort ≠ s.localPort then
      some (.portMismatch h.sourcePort h.destinationPort)
    else if h.verificationTag ≠ s.localVerificationTag then some (.tagMismatch h.verificationTag)
    else if s.params.verifyRxChecksum && !checksumOk rx h then some (.checksumMismatch h.checksum)
    else none

/-- WritePacket (R319, R320): the header test; an accepted packet is then parsed chunk by chunk, one a step (R322), and
answers at its end (R323). -/
def execWritePacket (rx : List Byte) (s : State) : Outcome :=
  betweenOperations s <|
    if s.terminated then .next (s.answer (.bool false))
    else
      match headerError (Space.ofBytes rx) s with
      | some e => .next (s.takeError e .rejectPacket)
      | none => .next { s with ingress := some ⟨Space.ofBytes rx, Config.HEADER_SIZE, none⟩ }

/-- An alone chunk (00 R18, 46 R326). -/
def Chunk.alone : Chunk → Bool
  | .init _ _ _ => true
  | .initAck _ _ _ => true
  | .cookieEcho _ _ => true
  | _ => false

/-- The chunk fill of R326: the chunks left in the queue, and the writer; `count` chunks are in the packet already. The
cursor moves by GetSize of each chunk. -/
def fillPacket (k : Codes) : List Chunk → Nat → Writer → Except Fault (List Chunk × Writer)
  | [], _, wr => .ok ([], wr)
  | c :: q, count, wr =>
    if Chunk.alone c && decide (0 < count) then .ok (c :: q, wr)
    else if wr.room < c.size k then .ok (c :: q, wr)
    else
      match serialize k c wr with
      | none => .error (.bufferOverrun wr.w wr.cap)
      | some (wr', _) =>
        let wr' := { wr' with w := wr.w + c.size k }
        if Chunk.alone c then .ok (q, wr') else fillPacket k q (count + 1) wr'

/-- The checksum of R328 and 45 R296: CRC32C over the packet, its checksum bytes zero, patched in. -/
def patchChecksum (wr : Writer) : Option Writer := do
  let bytes ← wr.space.readBytes 0 wr.w
  wr.patch4le 8 (crc32c bytes)

/-- One packet built in a TX space: the chunks left, and the writer after it (R325, R326, R328). -/
def buildPacket (s : State) (tx : Space) : Except Fault (List Chunk × Writer) :=
  match serializeHeader ⟨s.localPort, s.remotePort, s.remoteVerificationTag, 0⟩ (Writer.ofSpace tx) with
  | none => .error (.bufferOverrun 0 tx.size)
  | some wr =>
    match fillPacket s.params.codes s.queue 0 wr with
    | .error e => .error e
    | .ok (rest, wr) =>
      match patchChecksum wr with
      | none => .error (.bufferOverrun 8 wr.w)
      | some wr => .ok (rest, wr)

/-- Whether ReadPacket produces a packet: not terminated, a chunk pending, and room for the header and that chunk
(R324). -/
def State.packetReady (capacity : Nat) (s : State) : Bool :=
  match s.queue with
  | [] => false
  | c :: _ => !s.terminated && decide (Config.HEADER_SIZE + c.size s.params.codes ≤ capacity)

/-- ReadPacket (R324 to R328). `tx` is the TX buffer as the host lends it; the state keeps it for the host to read. -/
def execReadPacket (tx : List Byte) (s : State) : Outcome :=
  betweenOperations s <|
    let sp := Space.ofBytes tx
    if s.packetReady sp.size then
      match buildPacket s sp with
      | .error f => .fault f
      | .ok (rest, wr) =>
        .next ({ s with
          tx := wr.space
          wp := wr.w
          queue := rest
          pendingData := if rest = [] then false else s.pendingData }.answer (.length wr.w))
    else .next ({ s with tx := sp, wp := 0 }.answer (.length 0))

/-- GetState (R330). -/
def execGetState (s : State) : Outcome := betweenOperations s <| .next (s.answer (.state s.state))

/-- GetPendingData (R331). -/
def execGetPendingData (s : State) : Outcome := betweenOperations s <| .next (s.answer (.bool s.pendingData))

end Sys2Proof.Machine
end

