-- ==== Sys2Proof/Machine/Ingress.lean ====
section
/-! DEFINITION. Moving through a packet (44_chunks_other.md R250 to R253, 46_association_commands.md R322, R323): what
a chunk instruction and a parameter instruction do around their own effect, the end of the packet, and the fetch of the
next code. -/

namespace Sys2Proof.Machine

/-- `next` of 44 R250, R252: past the chunk and its padding, clamped to the packet. -/
def nextChunkAt (rx : Space) (pc : Nat) (length : U16) : Nat := min (pc + pad4 length.toNat) rx.size

/-- A chunk whose body is parsed whole: the length test (R251), the body parser's answer (R253), the cursor advance
(R252), then `Process` (46 R322). -/
def runChunk (t : Byte) (c : RawChunk) (rec : Option Chunk) (s : State) : Outcome :=
  match s.ingress with
  | some ⟨rx, pc, none⟩ =>
    if c.lengthUsable then
      match rec with
      | none => .next (s.takeError (.chunkBodyMalformed pc t) (.skipTo (nextChunkAt rx pc c.length)))
      | some r => .next (process r (s.resumeAt (nextChunkAt rx pc c.length)))
    else .next (s.takeError (.chunkLengthInvalid pc t c.length) .dropRest)
  | some ⟨_, _, some _⟩ => .refused .chunkOutsidePacket
  | none => .refused .chunkOutsidePacket

/-- The body of a parameter list used up: the record is complete and goes to `Process`, or, where a required parameter
is missing, the chunk has failed (42 R183, 43 R237). -/
def closeParams (pc : Nat) (q : ParamList) (s : State) : State :=
  match q.building.close with
  | some r => process r (s.resumeAt q.next)
  | none => s.takeError (.chunkBodyMalformed pc (q.building.typeCode s.params.codes)) (.skipTo q.next)

/-- The loop test of 42 R183 after the chunk's fixed part or a parameter: go on with the parameters that are left, or
complete the chunk. -/
def continueParams (rx : Space) (pc : Nat) (q : ParamList) (s : State) : State :=
  if q.reader.left = 0 then closeParams pc q s else { s with ingress := some ⟨rx, pc, some q⟩ }

/-- A chunk whose body goes on as TLV parameters: the length test, the fixed part, then the parameter loop. -/
def openChunk (t : Byte) (c : RawChunk) (start : Option (Building × List Byte)) (s : State) : Outcome :=
  match s.ingress with
  | some ⟨rx, pc, none⟩ =>
    if c.lengthUsable then
      match start with
      | none => .next (s.takeError (.chunkBodyMalformed pc t) (.skipTo (nextChunkAt rx pc c.length)))
      | some (b, tail) => .next (continueParams rx pc ⟨b, Reader.ofBytes tail, nextChunkAt rx pc c.length⟩ s)
    else .next (s.takeError (.chunkLengthInvalid pc t c.length) .dropRest)
  | some ⟨_, _, some _⟩ => .refused .chunkOutsidePacket
  | none => .refused .chunkOutsidePacket

/-- A parameter inside an open list (42 R183): its length test, the storing, the padding skip, the loop test. -/
def runParam (p : RawParam) (store : Building → Option Building) (s : State) : Outcome :=
  match s.ingress with
  | some ⟨rx, pc, some q⟩ =>
    if p.lengthUsable then
      match store q.building with
      | none => .next (s.takeError (.chunkBodyMalformed pc (q.building.typeCode s.params.codes)) (.skipTo q.next))
      | some b =>
        match q.reader.skip (4 + p.value.length) with
        | none => .fault (.bufferOverrun q.reader.p q.reader.size)
        | some rd => .next (continueParams rx pc { q with building := b, reader := rd.skipPad } s)
    else .next (s.takeError (.chunkBodyMalformed pc (q.building.typeCode s.params.codes)) (.skipTo q.next))
  | some ⟨_, _, none⟩ => .refused .parameterOutsideChunk
  | none => .refused .parameterOutsideChunk

/-- One to three stray bytes where a parameter header should start (42 R183, 30 R103). -/
def strayBytes (pc : Nat) (q : ParamList) (s : State) : State :=
  s.takeError (.chunkBodyMalformed pc (q.building.typeCode s.params.codes)) (.skipTo q.next)

/-- The acknowledgement decision at the end of a packet (46 R323). -/
def decideAck (s : State) : State :=
  if s.pendingAcknowledge then
    if s.pendingAcknowledgeTimeout = 0 then s.acknowledge
    else if s.timers.sack.isArmed then s
    else s.arm .sack s.pendingAcknowledgeTimeout
  else s

/-- The end of a WritePacket: the decision of R323, the buffer given back (20 R77), the result `true` (R319). -/
def finishPacket (s : State) : State := { (decideAck s).answer (.bool true) with ingress := none }

/-- What the next step finds. -/
inductive Fetched where
  /-- No operation runs and no command waits: the block is idle (60 R442). -/
  | idle
  /-- A code to decode, and the state it is executed in. -/
  | code (c : Code) (s : State)
  /-- A parameter list with nothing left; the loop test never leaves one open. -/
  | paramsDone (pc : Nat) (q : ParamList)
  /-- A parameter list with 1 to 3 bytes left. -/
  | stray (pc : Nat) (q : ParamList)
  /-- Fewer than 4 bytes of the packet remain (46 R322). -/
  | endOfPacket
  /-- A read beyond the RX space (40 R141); the tests before it exclude it. -/
  | overrun (offset size : Nat)
  deriving DecidableEq, Repr

/-- The fetch: the next command between operations (46 R310), the next parameter of an open list (42 R183), the chunk
at `pc` (46 R322). -/
def fetch (s : State) : Fetched :=
  match s.ingress with
  | none =>
    match s.port with
    | [] => .idle
    | c :: rest => .code (.command c) { s with port := rest }
  | some ⟨_, pc, some q⟩ =>
    if q.reader.left = 0 then .paramsDone pc q
    else if q.reader.left < 4 then .stray pc q
    else .code (.param q.reader.rest) s
  | some ⟨rx, pc, none⟩ =>
    if rx.size - pc < 4 then .endOfPacket
    else
      match rx.readBytes pc (rx.size - pc) with
      | none => .overrun pc rx.size
      | some bytes => .code (.chunk bytes) s

end Sys2Proof.Machine
end

