-- ==== Sys2Proof/Machine/Handshake.lean ====
section
/-! DEFINITION. The handshake chunks: INIT, INIT-ACK, COOKIE-ECHO, COOKIE-ACK (42_chunks_handshake.md; effects in
47_association_dispatch.md R352 to R356). -/

namespace Sys2Proof.Machine

/-- INIT (42 R181, 47 R352): the fixed part, then the parameters one a step; the last one runs `Process`. -/
def execInit (c : RawChunk) (s : State) : Outcome :=
  openChunk (s.params.codes.chunkType .init) c (openInit c.flag c.body) s

/-- INIT-ACK (42 R191, 47 R354). -/
def execInitAck (c : RawChunk) (s : State) : Outcome :=
  openChunk (s.params.codes.chunkType .initAck) c (openInitAck c.flag c.body) s

/-- COOKIE-ECHO (42 R201, 47 R353): every body parses. -/
def execCookieEcho (c : RawChunk) (s : State) : Outcome :=
  runChunk (s.params.codes.chunkType .cookieEcho) c (some (.cookieEcho c.flag c.body)) s

/-- COOKIE-ACK (42 R205, 47 R356): the body must be empty. -/
def execCookieAck (c : RawChunk) (s : State) : Outcome :=
  runChunk (s.params.codes.chunkType .cookieAck) c (parseEmpty (.cookieAck c.flag) c.body) s

end Sys2Proof.Machine
end

