-- ==== Sys2Proof/Machine/Other.lean ====
section
/-! DEFINITION. The remaining chunks (44_chunks_other.md); the dispatcher ignores each of them in every state
(47_association_dispatch.md R365), which is the effect `process` gives them. -/

namespace Sys2Proof.Machine

/-- ABORT (44 R260). -/
def execAbortChunk (c : RawChunk) (s : State) : Outcome :=
  runChunk (s.params.codes.chunkType .abort) c (some (.abort c.flag c.body)) s

/-- SHUTDOWN (44 R264). -/
def execShutdown (c : RawChunk) (s : State) : Outcome :=
  runChunk (s.params.codes.chunkType .shutdown) c (parseShutdown c.flag c.body) s

/-- SHUTDOWN-ACK (44 R267). -/
def execShutdownAck (c : RawChunk) (s : State) : Outcome :=
  runChunk (s.params.codes.chunkType .shutdownAck) c (parseEmpty (.shutdownAck c.flag) c.body) s

/-- ERROR (44 R262). -/
def execError (c : RawChunk) (s : State) : Outcome :=
  runChunk (s.params.codes.chunkType .error) c (some (.error c.flag c.body)) s

/-- SHUTDOWN-COMPLETE (44 R268). -/
def execShutdownComplete (c : RawChunk) (s : State) : Outcome :=
  runChunk (s.params.codes.chunkType .shutdownComplete) c (parseEmpty (.shutdownComplete c.flag) c.body) s

/-- RE-CONFIG (44 R270). -/
def execReConfig (c : RawChunk) (s : State) : Outcome :=
  runChunk (s.params.codes.chunkType .reConfig) c (some (.reConfig c.flag c.body)) s

/-- PADDING (44 R274). -/
def execPadding (c : RawChunk) (s : State) : Outcome :=
  runChunk (s.params.codes.chunkType .padding) c (some (.padding c.flag c.body)) s

/-- FORWARD-TSN (44 R272). -/
def execForwardTSN (c : RawChunk) (s : State) : Outcome :=
  runChunk (s.params.codes.chunkType .forwardTSN) c (some (.forwardTSN c.flag c.body)) s

/-- UNKNOWN (44 R278): the type byte is kept in the record. -/
def execUnknown (t : Byte) (c : RawChunk) (s : State) : Outcome := runChunk t c (some (.unknown t c.flag c.body)) s

end Sys2Proof.Machine
end

