-- ==== Sys2Proof/Machine/Parameters.lean ====
section
/-! DEFINITION. The TLV parameters (30_encoding.md R104, 42_chunks_handshake.md R183, R184, 43_chunks_data_sack.md
R237). -/

namespace Sys2Proof.Machine

/-- HEARTBEAT-INFO. -/
def execHeartbeatInfo (p : RawParam) (s : State) : Outcome := runParam p (storeHeartbeatInfo s.params.codes p.value) s

/-- IPV4-ADDRESS. -/
def execIpv4Address (p : RawParam) (s : State) : Outcome := runParam p (storeIpv4 p.value) s

/-- IPV6-ADDRESS. -/
def execIpv6Address (p : RawParam) (s : State) : Outcome := runParam p (storeIpv6 p.value) s

/-- STATE-COOKIE. -/
def execStateCookie (p : RawParam) (s : State) : Outcome := runParam p (storeStateCookie s.params.codes p.value) s

/-- COOKIE-PRESERVATIVE. -/
def execCookiePreservative (p : RawParam) (s : State) : Outcome :=
  runParam p (storeCookiePreservative s.params.codes p.value) s

/-- HOST-NAME. -/
def execHostName (p : RawParam) (s : State) : Outcome := runParam p (storeHostName p.value) s

/-- SUPPORTED-EXTENSIONS. -/
def execSupportedExtensions (p : RawParam) (s : State) : Outcome := runParam p (storeSupportedExtensions p.value) s

/-- FORWARD-TSN-SUPPORTED. -/
def execForwardTSNSupported (p : RawParam) (s : State) : Outcome := runParam p (storeForwardTSNSupported p.value) s

/-- An unrecognised parameter. -/
def execUnrecognisedParameter (t : U16) (p : RawParam) (s : State) : Outcome :=
  runParam p (keepUnrecognised t p.value) s

end Sys2Proof.Machine
end

