-- ==== Sys2Proof/Machine/Timers.lean ====
section
/-! DEFINITION. The timer fires (60_exceptions.md R420 to R424). -/

namespace Sys2Proof.Machine

/-- What a fire does around its handler: nothing on an idle slot (R424); else the slot becomes idle, and a handler that
finds another state than its own is ignored. -/
def fireTimer (i : TimerId) (own : AssocState) (handler : State → State) (s : State) : Outcome :=
  betweenOperations s <|
    if (s.timer i).isArmed then
      let s := s.setTimer i .idle
      if s.state = own then .next (handler s) else .next (s.takeError (.timerIgnored i s.state) .goOn)
    else .next s

/-- The retry of R421 and R422: below the ceiling count, enqueue and re-arm; at it give up. -/
def retry (i : TimerId) (c : Chunk) (s : State) : State :=
  if s.initRetransmissions < s.params.maxInitRetransmits then
    let s := { s with initRetransmissions := s.initRetransmissions + 1 }
    (s.enqueue c).arm i s.params.initRetransmitTimeout
  else { s.takeError (.retryCeiling i) .goOn with state := .closed }

/-- TimerFire(INIT) (R421). -/
def execTimerFireInit (s : State) : Outcome :=
  fireTimer .init .cookieWait (fun s => retry .init (buildInit s) s) s

/-- TimerFire(COOKIE) (R422). -/
def execTimerFireCookie (s : State) : Outcome :=
  fireTimer .cookie .cookieEchoed (fun s => retry .cookie (.cookieEcho 0 s.peerCookie) s) s

/-- TimerFire(SACK) (R423). -/
def execTimerFireSack (s : State) : Outcome := fireTimer .sack .established State.acknowledge s

end Sys2Proof.Machine
end

