-- ==== Sys2Proof/Machine/Transfer.lean ====
section
/-! DEFINITION. The transfer chunks: DATA, SACK, HEARTBEAT, HEARTBEAT-ACK (43_chunks_data_sack.md; effects in
47_association_dispatch.md R358, R365). -/

namespace Sys2Proof.Machine

/-- DATA (43 R221, 47 R358). -/
def execData (c : RawChunk) (s : State) : Outcome :=
  runChunk (s.params.codes.chunkType .data) c (parseData c.flag c.body) s

/-- SACK (43 R229, 47 R365). -/
def execSack (c : RawChunk) (s : State) : Outcome :=
  runChunk (s.params.codes.chunkType .sack) c (parseSack c.flag c.body) s

/-- HEARTBEAT (43 R237, 47 R365): its one parameter is the next step. -/
def execHeartbeat (c : RawChunk) (s : State) : Outcome :=
  openChunk (s.params.codes.chunkType .heartbeat) c (openHeartbeat c.flag c.body) s

/-- HEARTBEAT-ACK (43 R240, 47 R365). -/
def execHeartbeatAck (c : RawChunk) (s : State) : Outcome :=
  openChunk (s.params.codes.chunkType .heartbeatAck) c (openHeartbeatAck c.flag c.body) s

end Sys2Proof.Machine
end

