-- ==== Sys2Proof/Machine/Dispatch.lean ====
section
/-! DEFINITION. The dispatch from an instruction to its meaning, one arm per constructor of `Instr`. -/

namespace Sys2Proof.Machine

def exec (i : Instr) (s : State) : Host.Outcome State Fault Refusal :=
  match i with
  | .data c => Sys2Proof.Machine.execData c s
  | .init c => Sys2Proof.Machine.execInit c s
  | .initAck c => Sys2Proof.Machine.execInitAck c s
  | .sack c => Sys2Proof.Machine.execSack c s
  | .heartbeat c => Sys2Proof.Machine.execHeartbeat c s
  | .heartbeatAck c => Sys2Proof.Machine.execHeartbeatAck c s
  | .abortChunk c => Sys2Proof.Machine.execAbortChunk c s
  | .shutdown c => Sys2Proof.Machine.execShutdown c s
  | .shutdownAck c => Sys2Proof.Machine.execShutdownAck c s
  | .error c => Sys2Proof.Machine.execError c s
  | .cookieEcho c => Sys2Proof.Machine.execCookieEcho c s
  | .cookieAck c => Sys2Proof.Machine.execCookieAck c s
  | .shutdownComplete c => Sys2Proof.Machine.execShutdownComplete c s
  | .reConfig c => Sys2Proof.Machine.execReConfig c s
  | .padding c => Sys2Proof.Machine.execPadding c s
  | .forwardTSN c => Sys2Proof.Machine.execForwardTSN c s
  | .unknown t c => Sys2Proof.Machine.execUnknown t c s
  | .heartbeatInfo p => Sys2Proof.Machine.execHeartbeatInfo p s
  | .ipv4Address p => Sys2Proof.Machine.execIpv4Address p s
  | .ipv6Address p => Sys2Proof.Machine.execIpv6Address p s
  | .stateCookie p => Sys2Proof.Machine.execStateCookie p s
  | .cookiePreservative p => Sys2Proof.Machine.execCookiePreservative p s
  | .hostName p => Sys2Proof.Machine.execHostName p s
  | .supportedExtensions p => Sys2Proof.Machine.execSupportedExtensions p s
  | .forwardTSNSupported p => Sys2Proof.Machine.execForwardTSNSupported p s
  | .unrecognisedParameter t p => Sys2Proof.Machine.execUnrecognisedParameter t p s
  | .setLocalPort port => Sys2Proof.Machine.execSetLocalPort port s
  | .setRemotePort port => Sys2Proof.Machine.execSetRemotePort port s
  | .associate => Sys2Proof.Machine.execAssociate s
  | .abort => Sys2Proof.Machine.execAbort s
  | .enqueue c => Sys2Proof.Machine.execEnqueue c s
  | .writePacket rx => Sys2Proof.Machine.execWritePacket rx s
  | .readPacket tx => Sys2Proof.Machine.execReadPacket tx s
  | .getState => Sys2Proof.Machine.execGetState s
  | .getPendingData => Sys2Proof.Machine.execGetPendingData s
  | .timerFireInit => Sys2Proof.Machine.execTimerFireInit s
  | .timerFireCookie => Sys2Proof.Machine.execTimerFireCookie s
  | .timerFireSack => Sys2Proof.Machine.execTimerFireSack s

end Sys2Proof.Machine
end

