-- ==== Sys2Proof/Machine/Step.lean ====
section
/-! DEFINITION. One step: fetch, decode, execute. -/

namespace Sys2Proof.Machine

/-- One step. Between operations it takes the next command; inside a WritePacket it takes the next parameter or chunk,
or ends the packet; with nothing to do the block keeps its state (60 R442). -/
def step (s : State) : Host.Outcome State Fault Refusal :=
  match fetch s with
  | .idle => .next s
  | .code c s' =>
    match decode s.params.codes c with
    | .ok i => exec i s'
    | .error e => .refused (.undecodable e)
  | .paramsDone pc q => .next (closeParams pc q s)
  | .stray pc q => .next (strayBytes pc q s)
  | .endOfPacket => .next (finishPacket s)
  | .overrun offset size => .fault (.bufferOverrun offset size)

/-- A state whose next step fetches exactly the table word (log 1, log 15): a command at the head of the port; a chunk
at offset 12 of the packet in progress; a parameter at the start of an open parameter list. A chunk or parameter word is
one of the table's codes, so the codes are the defaults. -/
def State.withFetchWord (s : State) (nbits w : Nat) : State :=
  match tableCode nbits w with
  | .command c => { s with ingress := none, port := c :: s.port }
  | .chunk bytes =>
    { s with
      params := { s.params with codes := Codes.default }
      ingress := some ⟨Space.ofBytes (zeros 12 ++ bytes), 12, none⟩ }
  | .param bytes =>
    { s with
      params := { s.params with codes := Codes.default }
      ingress := some ⟨Space.ofBytes (zeros 32 ++ bytes), 12,
          some ⟨tableBuilding bytes, Reader.ofBytes bytes, 32 + bytes.length⟩⟩ }

end Sys2Proof.Machine
end

