-- ==== Sys2Proof/Machine/Reference.lean ====
section
/-! DEFINITION. WritePacket read as ONE operation, as 46_association_commands.md R322 and 44_chunks_other.md R250 write
it down: parse a whole chunk, process it, go on. The machine itself takes a chunk, and inside some chunks a parameter, a
step (log 2); statements compare the two. -/

namespace Sys2Proof.Machine

/-- `ParseChunk(pc)` and, where it gives a record, `Process` (R250, R322), on the bytes from `pc` to the end of the
packet. -/
def chunkOperation (bytes : List Byte) (pc : Nat) (s : State) : State :=
  match bytes with
  | t :: f :: l1 :: l0 :: tail =>
    if (rawChunk f (ofBe2 l1 l0) tail).lengthUsable then
      match parseChunk s.params.codes bytes with
      | (some r, k) => process r (s.resumeAt (pc + k))
      | (none, k) => s.takeError (.chunkBodyMalformed pc t) (.skipTo (pc + k))
    else s.takeError (.chunkLengthInvalid pc t (ofBe2 l1 l0)) .dropRest
  | _ => s

/-- The chunk loop of R322 and the end of the packet (R323), on fuel: every chunk takes at least 4 bytes. -/
def chunkLoop : Nat → State → State
  | 0, s => s
  | fuel + 1, s =>
    match s.ingress with
    | none => s
    | some ⟨rx, pc, _⟩ =>
      if rx.size - pc < 4 then finishPacket s
      else chunkLoop fuel (chunkOperation (rx.mem.readBytes pc (rx.size - pc)) pc s)

/-- The chunks of R326 that one packet takes from a queue, `room` bytes being left and `count` chunks in it. -/
def fitting (k : Codes) : Nat → Nat → List Chunk → List Chunk
  | _, _, [] => []
  | room, count, c :: q =>
    if Chunk.alone c = true ∧ 0 < count then []
    else if room < c.size k then []
    else if Chunk.alone c then [c]
    else c :: fitting k (room - c.size k) (count + 1) q

end Sys2Proof.Machine
end

