-- ==== Sys2Proof/Safety.lean ====
section
/-! DEFINITION. What claims are stated in: runs of steps, and the invariants a safe run keeps. Each invariant has a
statement that every step keeps it and a statement that reset has it. -/

namespace Sys2Proof.Machine

/-- The state after `n` steps, if each of them gives a next state. -/
def run : Nat → State → Option State
  | 0, s => some s
  | n + 1, s =>
    match step s with
    | .next s' => run n s'
    | .fault _ => none
    | .refused _ => none

/-- R59 (c) as 10_state.md writes it. -/
def TrackerAbovePoint (s : State) : Prop :=
  s.lastReceivedTSNValid = true → s.pendingAcknowledge = false → ∀ t ∈ s.receivedTSNs, s.lastReceivedTSN.toNat < t.toNat

/-- 10_state.md R59, with what it takes to be kept by every step. Clause (c) is asked of a state that is not terminated:
`Abort` clears `pendingAcknowledge` and keeps the multiset (46 R314, log 16). The last four fields are the model's
additions. -/
structure OperationInv (s : State) : Prop where
  /-- R59 (a). -/
  pendingDataLevel : s.pendingData = !s.queue.isEmpty
  /-- R59 (b). -/
  sackTimerPending : s.timers.sack.isArmed = true → s.pendingAcknowledge = true
  /-- R59 (c), not terminated. -/
  trackerAbovePoint : s.terminated = false → TrackerAbovePoint s
  /-- R59 (d). -/
  initTimerState : s.timers.init.isArmed = true → s.state = .cookieWait
  /-- R59 (d). -/
  cookieTimerState : s.timers.cookie.isArmed = true → s.state = .cookieEchoed
  /-- R59 (d). -/
  sackTimerState : s.timers.sack.isArmed = true → s.state = .established
  /-- R59 (e). -/
  terminatedEmpty : s.terminated = true → s.queue = [] ∧ s.timers = ⟨.idle, .idle, .idle⟩
  /-- R59 (f), with 2^32 as `2 ^ TSN_BITS` (R25). -/
  wrapperMark : s.wrapper.regs.maxExtSeqNum.toNat =
    s.wrapper.regs.cycles.toNat * 2 ^ s.wrapper.tsnBits + s.wrapper.regs.maxSeqNum.toNat
  /-- The widths are such as 41 R160 takes them. -/
  wrapperWidths : 1 ≤ s.wrapper.tsnBits ∧ s.wrapper.tsnBits < s.wrapper.extBits
  /-- An acknowledgement is pending only in Established. -/
  pendingEstablished : s.pendingAcknowledge = true → s.state = .established
  /-- The terminated block is in Closed (R314, R332). -/
  terminatedClosed : s.terminated = true → s.state = .closed
  /-- No WritePacket is in progress on a terminated block (R319). -/
  terminatedQuiet : s.terminated = true → s.ingress = none

/-- 10 R59 whole, clause (c) as it is written: asked of a terminated block too. -/
structure Rule59 (s : State) : Prop extends OperationInv s where
  trackerAsWritten : TrackerAbovePoint s

/-- The cells of both byte spaces are canonical and inside the space (log 8). -/
structure MemoryInv (s : State) : Prop where
  rx : ∀ g, s.ingress = some g → g.rx.wf = true
  tx : s.tx.wf = true

/-- The parse cursor of a packet in progress: after the header, inside the packet, a multiple of 4 unless it was clamped
to the end (10 R40, 44 R252). -/
def Ingress.cursorOk (g : Ingress) : Prop :=
  12 ≤ g.pc ∧ g.pc ≤ g.rx.size ∧ (g.pc % 4 = 0 ∨ g.pc = g.rx.size)

/-- An open parameter list: something is left to read, the reader stands on a boundary of 4 (40 R138), and the next
chunk lies ahead, inside the packet, on a boundary unless clamped. -/
def ParamList.cursorOk (g : Ingress) (q : ParamList) : Prop :=
  0 < q.reader.left ∧ q.reader.p % 4 = 0 ∧ g.pc < q.next ∧ q.next ≤ g.rx.size ∧
    (q.next % 4 = 0 ∨ q.next = g.rx.size)

/-- The cursors of a WritePacket in progress are where R40 says. -/
structure CursorInv (s : State) : Prop where
  chunk : ∀ g, s.ingress = some g → g.cursorOk
  param : ∀ g q, s.ingress = some g → g.params = some q → q.cursorOk g

/-- The queue holds well-formed records only, and no more than `QUEUE_MAX` of them (46 R316). -/
structure QueueInv (s : State) : Prop where
  wellFormed : ∀ c ∈ s.queue, c.wf s.params.codes = true
  bounded : ∀ m, s.params.queueMax = some m → s.queue.length ≤ m

/-- The multiset is held in ascending order (10 R45). -/
def TrackerInv (s : State) : Prop := s.receivedTSNs.Pairwise fun a b => a.toNat ≤ b.toNat

/-- The state register holds one of the four values that are written (00 R7, 10 R24). -/
def LegalState (s : State) : Prop := s.state.code ≤ 3

/-- "Handshake begins" (46 R311): the ports can no longer be written. -/
def HandshakeBegun (s : State) : Prop :=
  s.terminated = true ∨ s.state ≠ .closed ∨ s.localVerificationTag ≠ 0

/-- During the active open a local tag has been drawn (46 R313). -/
def ActiveOpenTagged (s : State) : Prop :=
  s.state = .cookieWait ∨ s.state = .cookieEchoed → s.localVerificationTag ≠ 0

/-- The state with the parse cursor at a chunk boundary of the packet in progress, nothing else changed. -/
def State.atChunk (rx : Space) (pc : Nat) (s : State) : State := { s with ingress := some ⟨rx, pc, none⟩ }

/-- The state after the chunk at `pc` has failed (44 R253): the error logged, the cursor moved on, nothing else
changed. -/
def State.chunkFailed (rx : Space) (pc next : Nat) (t : Byte) (s : State) : State :=
  { s with log := s.log ++ [.chunkBodyMalformed pc t], ingress := some ⟨rx, next, none⟩ }

/-- A writer that lies inside its space (40 R139). -/
def WriterOk (wr : Writer) : Prop :=
  wr.space.wf = true ∧ wr.base + wr.cap ≤ wr.space.size ∧ wr.w ≤ wr.cap

end Sys2Proof.Machine
end

