-- ==== Sys2Proof/WellFormed.lean ====
section
/-! DEFINITION. Which instructions can stand in a packet or on the control port as they are: the checks of the encoding
on operands. (Well-formedness of a chunk RECORD, 42 R186 and its fellows, is behaviour and stands in Decode.lean.) -/

namespace Sys2Proof

/-- A chunk's `length` counts its header and its body (R94). -/
def RawChunk.wellFormed (c : RawChunk) : Bool :=
  c.length.toNat == Config.CHUNK_HEADER_SIZE + c.body.length

/-- A parameter's `plength` counts its header and its value (R97). -/
def RawParam.wellFormed (p : RawParam) : Bool :=
  p.length.toNat == Config.CHUNK_HEADER_SIZE + p.value.length

/-- The checks on an instruction: usable lengths, and a type code of its own for the two default rows; `k` holds
the type codes (R12). -/
def Instr.wellFormed (k : Codes) : Instr → Bool
  | .data c | .init c | .initAck c | .sack c | .heartbeat c | .heartbeatAck c | .abortChunk c | .shutdown c
  | .shutdownAck c | .error c | .cookieEcho c | .cookieAck c | .shutdownComplete c | .reConfig c | .padding c
  | .forwardTSN c => c.wellFormed
  | .unknown t c => c.wellFormed && !k.chunkTypes.contains t
  | .heartbeatInfo p | .ipv4Address p | .ipv6Address p | .stateCookie p | .cookiePreservative p | .hostName p
  | .supportedExtensions p | .forwardTSNSupported p => p.wellFormed
  | .unrecognisedParameter t p => p.wellFormed && !k.paramTypes.contains t
  | .setLocalPort _ | .setRemotePort _ | .associate | .abort | .enqueue _ | .writePacket _ | .readPacket _
  | .getState | .getPendingData | .timerFireInit | .timerFireCookie | .timerFireSack => true

end Sys2Proof
end

