-- ==== Sys2Proof/Certificates/Slice0/Obligations.lean ====
section
/-! DEFINITION. The statements about the model, from the numbered rules of spec/. `next` of a chunk of `length` L at
`pc` is `min (pc + pad4 L) rx.size` (44 R252) throughout; a next state is given whole, so what it does not name is
unchanged. -/

open Sys2Proof Sys2Proof.Machine

/-! ## Encoding -/

/-- Words written out from the encodings of 42 R206, 44 R265, R279, 30 R97, R104, R109, with the type codes at their
defaults (log 7), decode to what they stand for; which instruction a bare table word is, the last two clauses, is the
model's own choice (log 15). -/
def Obligations.WrittenOutWordsDecode : Prop :=
  decode Codes.default (.chunk [0x0B, 0x00, 0x00, 0x04]) = .ok (.cookieAck ⟨0, 4, []⟩) ∧
  decode Codes.default (.chunk [0x07, 0x00, 0x00, 0x08, 0x00, 0x00, 0x00, 0x07]) =
    .ok (.shutdown ⟨0, 8, [0, 0, 0, 7]⟩) ∧
  decode Codes.default (.chunk [0x0C, 0x00, 0x00, 0x08, 0x00, 0x00, 0x00, 0x07]) =
    .ok (.unknown 0x0C ⟨0, 8, [0, 0, 0, 7]⟩) ∧
  decode Codes.default (.param [0x00, 0x05, 0x00, 0x08, 0xC0, 0x00, 0x02, 0x01]) =
    .ok (.ipv4Address ⟨8, [0xC0, 0, 2, 1]⟩) ∧
  decodeTableWord 32 0x0B000004 = some (.cookieAck ⟨0, 4, []⟩) ∧
  decodeTableWord 8 0x08 = some .getState

/-- For every choice of distinct type codes (00 R12), every well-formed instruction's code decodes to it, whatever bytes
follow in the packet or the body. -/
def Obligations.DecodeOfEncode : Prop :=
  ∀ (k : Codes) (i : Instr) (more : List Byte), k.Distinct → i.wellFormed k = true →
    decode k ((encode k i).followedBy more) = .ok i

/-- 30 R101, R102, R104, R105: every chunk header and every parameter header is an instruction; its kind is fixed by the
type alone, its flag and length are the header's, and it is UNKNOWN (unrecognised) exactly when the type is not in the
table. The operands are well-formed exactly when the length is usable (44 R250 with the spec's decision D12, 42 R183),
and then carry the bytes counted. A variant's parser used on its own rejects another type byte. The codes are parameters
(00 R12); their defaults are the general-knowledge values of log 7 (PRESUMED), distinct from one another. -/
def Obligations.EveryHeaderDecodes : Prop :=
  (∀ (k : Codes) (t f l1 l0 : Byte) (tail : List Byte), ∃ i c,
    decode k (.chunk (t :: f :: l1 :: l0 :: tail)) = .ok i ∧ i.chunkOperands k = some (t, c) ∧
    c.flag = f ∧ c.length = ofBe2 l1 l0 ∧
    (c.wellFormed = true ↔ 4 ≤ c.length.toNat ∧ c.length.toNat ≤ 4 + tail.length) ∧
    (c.wellFormed = true → c.body = tail.take (c.length.toNat - 4)) ∧
    (i = .unknown t c ↔ t ∉ k.chunkTypes)) ∧
  (∀ (k : Codes) (t1 t0 l1 l0 : Byte) (tail : List Byte), ∃ i p,
    decode k (.param (t1 :: t0 :: l1 :: l0 :: tail)) = .ok i ∧ i.paramOperands k = some (ofBe2 t1 t0, p) ∧
    p.length = ofBe2 l1 l0 ∧
    (p.wellFormed = true ↔ 4 ≤ p.length.toNat ∧ p.length.toNat ≤ 4 + tail.length) ∧
    (p.wellFormed = true → p.value = tail.take (p.length.toNat - 4)) ∧
    (i = .unrecognisedParameter (ofBe2 t1 t0) p ↔ ofBe2 t1 t0 ∉ k.paramTypes)) ∧
  (∀ (k : Codes) (expected t : Byte) (tail : List Byte),
    parseEntry k expected (t :: tail) = if t = expected then (parseChunk k (t :: tail)).1 else none) ∧
  Codes.default.chunkTypes = [0, 1, 2, 3, 4, 5, 6, 7, 8, 9, 10, 11, 14, 130, 132, 192] ∧
  Codes.default.paramTypes = [1, 5, 6, 7, 9, 11, 0x8008, 0xC000] ∧ Codes.default.Distinct

/-! ## Byte spaces and buffer primitives -/

/-- A byte string written to a space is read back and changes no other byte; a write beyond the space has no value
(20 R68, 40 R141); canonical cell lists that read alike are equal, so equal contents are equal data (log 8). -/
def Obligations.SpaceReadsBackAndIsCanonical : Prop :=
  (∀ (sp : Space) (a : Nat) (bs : List Byte), sp.wf = true →
    (a + bs.length ≤ sp.size → ∃ sp', sp.writeBytes a bs = some sp' ∧ sp'.wf = true ∧ sp'.size = sp.size ∧
      sp'.readBytes a bs.length = some bs ∧
      ∀ x, (x < a ∨ a + bs.length ≤ x) → sp'.byteAt x = sp.byteAt x) ∧
    (sp.size < a + bs.length → sp.writeBytes a bs = none)) ∧
  (∀ (sp : Space) (a n : Nat), sp.size < a + n → sp.readBytes a n = none) ∧
  (∀ m m' : Memory, m.wf = true → m'.wf = true → (∀ a, m.read a = m'.read a) → m = m')

/-- 40 R142. -/
def Obligations.ReaderReadsWhatWriterWrote : Prop :=
  ∀ wr : Writer, WriterOk wr →
    (∀ v : Byte, 1 ≤ wr.room → ∃ wr' bs, wr.put1 v = some wr' ∧ wr'.w = wr.w + 1 ∧
      wr'.space.readBytes (wr.base + wr.w) 1 = some bs ∧ (Reader.ofBytes bs).get1 = some (v, ⟨1, []⟩)) ∧
    (∀ v : U16, 2 ≤ wr.room → ∃ wr' bs, wr.put2 v = some wr' ∧ wr'.w = wr.w + 2 ∧
      wr'.space.readBytes (wr.base + wr.w) 2 = some bs ∧ (Reader.ofBytes bs).get2 = some (v, ⟨2, []⟩)) ∧
    (∀ v : U32, 4 ≤ wr.room → ∃ wr' bs, wr.put4 v = some wr' ∧ wr'.w = wr.w + 4 ∧
      wr'.space.readBytes (wr.base + wr.w) 4 = some bs ∧ (Reader.ofBytes bs).get4 = some (v, ⟨4, []⟩)) ∧
    (∀ x : List Byte, x.length ≤ wr.room → ∃ wr' bs, wr.putBytes x = some wr' ∧ wr'.w = wr.w + x.length ∧
      wr'.space.readBytes (wr.base + wr.w) x.length = some bs ∧
      (Reader.ofBytes bs).getBytes x.length = some (x, ⟨x.length, []⟩)) ∧
    (padlen wr.w ≤ wr.room → ∃ wr', wr.putPad = some wr' ∧ wr'.w % 4 = 0 ∧ wr.w ≤ wr'.w ∧ wr'.w ≤ wr.w + 3 ∧
      ∀ a, wr.w ≤ a → a < wr'.w → wr'.space.byteAt (wr.base + a) = 0)

/-- 40 R140 (20 R61 for the checksum): least significant byte first, the cursor and every other byte unchanged. That the
call has no value with its precondition false is R141, the spec's decision D41 (log 14). -/
def Obligations.PatchLittleEndian : Prop :=
  ∀ (wr : Writer) (a : Nat) (v : U32), WriterOk wr →
    (a + 4 ≤ wr.w → ∃ wr', wr.patch4le a v = some wr' ∧ wr'.w = wr.w ∧
      wr'.space.byteAt (wr.base + a) = v.extractLsb' 0 8 ∧
      wr'.space.byteAt (wr.base + a + 1) = v.extractLsb' 8 8 ∧
      wr'.space.byteAt (wr.base + a + 2) = v.extractLsb' 16 8 ∧
      wr'.space.byteAt (wr.base + a + 3) = v.extractLsb' 24 8 ∧
      ∀ x, (x < wr.base + a ∨ wr.base + a + 4 ≤ x) → wr'.space.byteAt x = wr.space.byteAt x) ∧
    (wr.w < a + 4 → wr.patch4le a v = none)

/-! ## Chunk codec -/

/-- 44 R285, for every choice of distinct type codes (00 R12, 93 U15). -/
def Obligations.ChunkRoundTrip : Prop :=
  ∀ (k : Codes) (c : Chunk) (sp : Space), k.Distinct → c.wf k = true → sp.wf = true → sp.size = c.size k →
    ∃ wr bytes, serialize k c (Writer.ofSpace sp) = some (wr, c.size k) ∧
      wr.space.readBytes 0 (c.size k) = some bytes ∧ parseChunk k bytes = (some c, c.size k)

/-- 44 R286: the bytes emitted, their padding, and the `length` field written. -/
def Obligations.SerialisedSize : Prop :=
  ∀ (k : Codes) (c : Chunk), c.wf k = true →
    (c.image k).length = c.size k ∧ c.size k % 4 = 0 ∧ 4 ≤ c.size k ∧ c.size k ≤ 65536 ∧
    c.length k ≤ c.size k ∧ c.size k - c.length k ≤ 3 ∧
    ∃ l1 l0 tail, c.image k = c.typeCode k :: c.flag :: l1 :: l0 :: tail ∧ (ofBe2 l1 l0).toNat = c.length k

/-- 44 R255. -/
def Obligations.SerialiseWritesExactly : Prop :=
  ∀ (k : Codes) (c : Chunk) (wr : Writer), WriterOk wr →
    (c.wf k = false ∨ wr.room < c.size k → serialize k c wr = some (wr, 0)) ∧
    (c.wf k = true → c.size k ≤ wr.room → ∃ wr', serialize k c wr = some (wr', c.size k) ∧ wr'.w = wr.w + c.size k ∧
      wr'.space.readBytes (wr.base + wr.w) (c.size k) = some (c.image k) ∧
      ∀ x, (x < wr.base + wr.w ∨ wr.base + wr.w + c.size k ≤ x) → wr'.space.byteAt x = wr.space.byteAt x)

/-- 42 R184, and 43 R237 for HEARTBEAT and HEARTBEAT-ACK: where each parameter value goes. For every choice of distinct
codes (00 R12). The sizes are general knowledge (log 7); that a later value wins is the spec's own decision D16. -/
def Obligations.ParameterStoring : Prop :=
  ∀ (k : Codes) (f : Byte) (r : InitRec) (life : Option U32) (ck : Option (List Byte)) (v : List Byte), k.Distinct →
    storeParam k k.ptIpv4Address v (.init f r life) =
      (if v.length = 4 then some (.init f { r with ipv4 := r.ipv4 ++ [v] } life) else none) ∧
    storeParam k k.ptIpv4Address v (.initAck f r ck) =
      (if v.length = 4 then some (.initAck f { r with ipv4 := r.ipv4 ++ [v] } ck) else none) ∧
    storeParam k k.ptIpv6Address v (.init f r life) =
      (if v.length = 16 then some (.init f { r with ipv6 := r.ipv6 ++ [v] } life) else none) ∧
    storeParam k k.ptIpv6Address v (.initAck f r ck) =
      (if v.length = 16 then some (.initAck f { r with ipv6 := r.ipv6 ++ [v] } ck) else none) ∧
    storeParam k k.ptStateCookie v (.initAck f r ck) = some (.initAck f r (some v)) ∧
    (∀ n : U32, storeParam k k.ptCookiePreservative (be4 n) (.init f r life) = some (.init f r (some n))) ∧
    (v.length ≠ 4 → storeParam k k.ptCookiePreservative v (.init f r life) = none) ∧
    storeParam k k.ptHostName v (.init f r life) = some (.init f { r with hostName := some v } life) ∧
    storeParam k k.ptHostName v (.initAck f r ck) = some (.initAck f { r with hostName := some v } ck) ∧
    storeParam k k.ptSupportedExtensions v (.init f r life) =
      some (.init f { r with supportedExtensions := some v } life) ∧
    storeParam k k.ptSupportedExtensions v (.initAck f r ck) =
      some (.initAck f { r with supportedExtensions := some v } ck) ∧
    storeParam k k.ptForwardTSNSupported v (.init f r life) =
      (if v.length = 0 then some (.init f { r with forwardTSNSupported := true } life) else none) ∧
    storeParam k k.ptForwardTSNSupported v (.initAck f r ck) =
      (if v.length = 0 then some (.initAck f { r with forwardTSNSupported := true } ck) else none) ∧
    (∀ t : U16, t ∉ [k.ptIpv4Address, k.ptIpv6Address, k.ptCookiePreservative, k.ptHostName,
        k.ptSupportedExtensions, k.ptForwardTSNSupported] →
      storeParam k t v (.init f r life) =
        some (.init f { r with unknownParams := r.unknownParams ++ [(t, v)] } life)) ∧
    (∀ t : U16, t ∉ [k.ptIpv4Address, k.ptIpv6Address, k.ptStateCookie, k.ptHostName,
        k.ptSupportedExtensions, k.ptForwardTSNSupported] →
      storeParam k t v (.initAck f r ck) =
        some (.initAck f { r with unknownParams := r.unknownParams ++ [(t, v)] } ck)) ∧
    storeParam k k.ptHeartbeatInfo v (.heartbeat f none) = some (.heartbeat f (some v)) ∧
    storeParam k k.ptHeartbeatInfo v (.heartbeatAck f none) = some (.heartbeatAck f (some v)) ∧
    (∀ (t : U16) (info : Option (List Byte)), t ≠ k.ptHeartbeatInfo ∨ info ≠ none →
      storeParam k t v (.heartbeat f info) = none ∧ storeParam k t v (.heartbeatAck f info) = none)

/-! ## Packet header and checksum -/

/-- The check values of 45 R295, general knowledge as the spec says. -/
def Obligations.ChecksumCheckValues : Prop :=
  crc32c [0x31, 0x32, 0x33, 0x34, 0x35, 0x36, 0x37, 0x38, 0x39] = 0xE3069283 ∧
  crc32c [] = 0 ∧
  crc32c (List.replicate 32 0) = 0x8A9136AA ∧
  crc32c (List.replicate 32 0xFF) = 0x62A8AB43 ∧
  crc32c ((List.range 32).map (BitVec.ofNat 8)) = 0x46DD794E

/-- 45 R299: the header round trip, with the frame of R292; and the test of R297 on every packet ReadPacket produces. -/
def Obligations.PacketHeaderLaws : Prop :=
  (∀ (h : PacketHeader) (sp : Space), sp.wf = true → 12 ≤ sp.size →
    ∃ wr, serializeHeader h (Writer.ofSpace sp) = some wr ∧ wr.w = 12 ∧ parseHeader wr.space = some h ∧
      ∀ a, 12 ≤ a → wr.space.byteAt a = sp.byteAt a) ∧
  (∀ (s s' : State) (tx : List Byte), exec (.readPacket tx) s = .next s' → s'.wp ≠ 0 →
    ∃ bytes h, s'.tx.readBytes 0 s'.wp = some bytes ∧ parseHeader (Space.ofBytes bytes) = some h ∧
      checksumOk (Space.ofBytes bytes) h = true)

/-! ## SequenceNumberWrapper -/

/-- 41 R166, for every width and window. -/
def Obligations.WrapFirstCall : Prop :=
  ∀ (n e win : Nat) (raw : BitVec n), 1 ≤ n → n < e →
    ((⟨0, 0, 0⟩ : SeqWrapper n e).wrap win raw).1.toNat = raw.toNat ∧
    ((⟨0, 0, 0⟩ : SeqWrapper n e).wrap win raw).2 =
      if 0 < raw.toNat then ⟨0, raw, BitVec.ofNat e raw.toNat⟩ else ⟨0, 0, 0⟩

/-- 41 R163 (i) to (vi) and R164, for every width and window, the cycle counter having room for one more wrap
(R169). -/
def Obligations.WrapCases : Prop :=
  ∀ (n e win : Nat) (w : SeqWrapper n e) (raw : BitVec n), 1 ≤ n → n < e →
    w.maxExtSeqNum.toNat = w.cycles.toNat * 2 ^ n + w.maxSeqNum.toNat → w.cycles.toNat + 1 < 2 ^ (e - n) →
    (raw.toNat < w.maxSeqNum.toNat ∧ w.maxSeqNum.toNat - raw.toNat > win →
      w.maxExtSeqNum.toNat < (w.wrap win raw).1.toNat ∧ (w.wrap win raw).2.cycles.toNat = w.cycles.toNat + 1 ∧
      (w.wrap win raw).2.maxSeqNum = raw ∧ (w.wrap win raw).2.maxExtSeqNum = (w.wrap win raw).1) ∧
    (w.maxSeqNum.toNat < raw.toNat ∧ raw.toNat - w.maxSeqNum.toNat > win ∧ 0 < w.cycles.toNat →
      (w.wrap win raw).1.toNat < w.maxExtSeqNum.toNat ∧ (w.wrap win raw).2 = w) ∧
    (¬ (raw.toNat < w.maxSeqNum.toNat ∧ w.maxSeqNum.toNat - raw.toNat > win) →
      ¬ (w.maxSeqNum.toNat < raw.toNat ∧ raw.toNat - w.maxSeqNum.toNat > win ∧ 0 < w.cycles.toNat) →
      (w.wrap win raw).2.cycles = w.cycles ∧
      (w.maxSeqNum.toNat < raw.toNat →
        (w.wrap win raw).2.maxSeqNum = raw ∧ (w.wrap win raw).2.maxExtSeqNum = (w.wrap win raw).1) ∧
      (raw.toNat ≤ w.maxSeqNum.toNat → (w.wrap win raw).2 = w)) ∧
    (w.wrap win raw).1.toNat % 2 ^ n = raw.toNat ∧
    (w.wrap win raw).2.maxExtSeqNum.toNat =
      (w.wrap win raw).2.cycles.toNat * 2 ^ n + (w.wrap win raw).2.maxSeqNum.toNat ∧
    w.maxExtSeqNum.toNat ≤ (w.wrap win raw).2.maxExtSeqNum.toNat ∧
    unWrap n (w.wrap win raw).1 = raw ∧ ∀ ext : BitVec e, (unWrap n ext).toNat = ext.toNat % 2 ^ n

/-- 41 R168: a raw sequence that moves forward by at most the window each time, and by less than the window where it
wraps, has strictly increasing extended values (short of the end of the extended range, R169), the window being half
the range (R10). -/
def Obligations.WrapMonotonic : Prop :=
  ∀ (n e : Nat) (raws : List (BitVec n)), 1 ≤ n → n < e → raws.length * 2 ^ (n - 1) + 2 ^ n ≤ 2 ^ e →
    (∀ (k : Nat) (a b : BitVec n), raws[k]? = some a → raws[k + 1]? = some b →
      0 < (b - a).toNat ∧ (b - a).toNat ≤ 2 ^ (n - 1) ∧
      (b.toNat < a.toNat → (b - a).toNat < 2 ^ (n - 1))) →
    ((⟨0, 0, 0⟩ : SeqWrapper n e).wrapAll (2 ^ (n - 1)) raws).Pairwise fun x y => x.toNat < y.toNat

/-! ## Gap and duplicate tracker -/

/-- 47 R360. -/
def Obligations.GapIsAnAdjacentJump : Prop :=
  ∀ m : List U64, hasGap m = true ↔
    ∃ (i : Nat) (a b : U64), m[i]? = some a ∧ m[i + 1]? = some b ∧ b.toNat - a.toNat > 1

/-- 10 R45: insertion keeps the ascending order and adds exactly one element. -/
def Obligations.TrackerInsertion : Prop :=
  ∀ (t : U64) (m : List U64), m.Pairwise (fun a b => a.toNat ≤ b.toNat) →
    (insertTSN t m).Pairwise (fun a b => a.toNat ≤ b.toNat) ∧ (insertTSN t m).Perm (t :: m)

/-- What the walk of 47 R362 reports, said without the walk. The cumulative point has moved over exactly the contiguous
run above it; the gap blocks are the maximal runs of stored numbers above the point, ascending, at least 2 above it and
apart from each other (R363); the duplicates are every copy at or below the old point and every further copy above. What
counts as a duplicate at the point is the spec's decision D23. -/
def Obligations.AcknowledgeWalkReports : Prop :=
  ∀ (l : U64) (ts : List U64), ts.Pairwise (fun a b => a.toNat ≤ b.toNat) →
    l.toNat ≤ (ackWalk l ts).l.toNat ∧
    (∀ x : Nat, l.toNat < x → x ≤ (ackWalk l ts).l.toNat → ∃ t ∈ ts, t.toNat = x) ∧
    (∀ t ∈ ts, t.toNat ≠ (ackWalk l ts).l.toNat + 1) ∧
    (∀ x : Nat, (∃ b ∈ (ackWalk l ts).gaps, b.1.toNat ≤ x ∧ x ≤ b.2.toNat) ↔
      (ackWalk l ts).l.toNat < x ∧ ∃ t ∈ ts, t.toNat = x) ∧
    (∀ b ∈ (ackWalk l ts).gaps, (ackWalk l ts).l.toNat + 2 ≤ b.1.toNat ∧ b.1.toNat ≤ b.2.toNat) ∧
    (ackWalk l ts).gaps.Pairwise (fun b b' => b.2.toNat + 1 < b'.1.toNat) ∧
    ∀ t : U64, (ackWalk l ts).dups.count t = if t.toNat ≤ l.toNat then ts.count t else ts.count t - 1

/-- 47 R363: offsets modulo 2^16, one log entry for each block that ends beyond 65535, at most 16379 entries with
duplicates dropped first, each list from its end; the SACK built is always well-formed (43 R230). Decision D24. -/
def Obligations.SackLimits : Prop :=
  (∀ (l : U64) (b : U64 × U64), l.toNat ≤ b.1.toNat → l.toNat ≤ b.2.toNat →
    (gapOffsets l b).1.toNat = (b.1.toNat - l.toNat) % 2 ^ 16 ∧
    (gapOffsets l b).2.toNat = (b.2.toNat - l.toNat) % 2 ^ 16) ∧
  (∀ (l s e : U64) (gaps : List (U64 × U64)),
    LogEntry.gapOffsetOverflow s e l ∈ gapOverflows l gaps ↔ (s, e) ∈ gaps ∧ e.toNat - l.toNat > 65535) ∧
  (∀ (g : List (U16 × U16)) (d : List U32),
    (truncateSack g d).1.length + (truncateSack g d).2.length = min (g.length + d.length) 16379 ∧
    (truncateSack g d).1 <+: g ∧ (truncateSack g d).2 <+: d ∧
    ((truncateSack g d).1 ≠ g → (truncateSack g d).2 = [])) ∧
  ∀ (k : Codes) (w : TsnWrapper) (a : U32) (walk : AckWalk), (buildSack w a walk).wf k = true

/-- 47 R362: the registers, the queue, the log and the events after `Acknowledge` (decisions D23, D24); the walk
itself is `AcknowledgeWalkReports`. That the GapOffsetOverflow entries come before the entry an `Enqueue` of the SACK
may log is the model's reading (log 19). A TSN field is the low `TSN_BITS` bits of an extended number (41 R164). -/
def Obligations.AcknowledgeEffect : Prop :=
  ∀ s : State,
    (s.wrapper.tsnBits = 32 → ∀ x : U64, s.wrapper.unWrapTSN x = unWrap 32 x) ∧
    (s.lastReceivedTSNValid = false → s.receivedTSNs = [] →
      s.acknowledge = { s with
        timers := { s.timers with sack := .idle }
        events := s.events ++ (if s.timers.sack = .idle then [] else [.timerCancel .sack])
        pendingAcknowledge := false }) ∧
    (∀ (l : U64) (ts : List U64),
      (s.lastReceivedTSNValid = true ∧ l = s.lastReceivedTSN ∧ ts = s.receivedTSNs ∨
        s.lastReceivedTSNValid = false ∧ s.receivedTSNs = l :: ts) →
      ∃ t : State,
        t = State.enqueue
          (.sack 0 ⟨s.wrapper.unWrapTSN (ackWalk l ts).l, s.params.localArwnd,
            (truncateSack ((ackWalk l ts).gaps.map (gapOffsets (ackWalk l ts).l))
              ((ackWalk l ts).dups.map s.wrapper.unWrapTSN)).1,
            (truncateSack ((ackWalk l ts).gaps.map (gapOffsets (ackWalk l ts).l))
              ((ackWalk l ts).dups.map s.wrapper.unWrapTSN)).2⟩)
          { s with
            lastReceivedTSN := (ackWalk l ts).l
            lastReceivedTSNValid := true
            receivedTSNs := s.receivedTSNs.filter fun x => decide ((ackWalk l ts).l.toNat < x.toNat)
            log := s.log ++ gapOverflows (ackWalk l ts).l (ackWalk l ts).gaps } ∧
        s.acknowledge = { t with
          timers := { s.timers with sack := .idle }
          events := t.events ++ (if s.timers.sack = .idle then [] else [.timerCancel .sack])
          pendingAcknowledge := false })

/-! ## Commands -/

/-- 46 R311, with the log entry of 60 R400 (code 10). Its information, the codes 0x01 and 0x02 of 30 R109 (decision D2)
where R311 writes SetPort, is the model's reading of R400 (log 21, DEDUCED). The test that stands for "handshake begins" is
the spec's own decision D30. -/
def Obligations.PortsSetBeforeHandshake : Prop :=
  ∀ (s : State) (p : U16), s.ingress = none →
    (s.terminated = false ∧ s.state = .closed ∧ s.localVerificationTag = 0 →
      exec (.setLocalPort p) s = .next { s with localPort := p } ∧
      exec (.setRemotePort p) s = .next { s with remotePort := p }) ∧
    (¬ (s.terminated = false ∧ s.state = .closed ∧ s.localVerificationTag = 0) →
      exec (.setLocalPort p) s = .next { s with log := s.log ++ [.commandIgnored 0x01] } ∧
      exec (.setRemotePort p) s = .next { s with log := s.log ++ [.commandIgnored 0x02] })

/-- 46 R313, R317. The tag is never 0; a random source that gives zeros and then `tag`, `tsn` gives that tag and that
TSN, so every nonzero tag and every TSN is possible. Which values come when the source is used up is free (log 6). The
TSN draw and ignoring the command outside Closed are the spec's decisions D7, D30. The entry's code 0x03 (30 R109, decision
D2) is the model's reading of 60 R400 (log 21, DEDUCED). -/
def Obligations.AssociateOpens : Prop :=
  ∀ s : State, s.ingress = none →
    (s.terminated = false → s.state = .closed →
      ∃ after : U32 → U32 → List U32 → Nat → State,
        (∀ tag tsn draws n, ∃ t : State,
          t = State.enqueue
            (.init 0 ⟨tag, s.params.localArwnd, s.params.numOutboundStreams, s.params.numInboundStreams, tsn, [], [],
              none, s.params.initSupportedExtensions, s.params.initForwardTSNSupported, []⟩ none)
            { s with
              localVerificationTag := tag
              localInitialTSN := tsn
              initRetransmissions := 0
              draws := draws
              freeDraws := n } ∧
          after tag tsn draws n = { t with
            timers := { s.timers with init := .armed s.params.initRetransmitTimeout }
            events := t.events ++ [.timerArm .init s.params.initRetransmitTimeout]
            state := .cookieWait }) ∧
        (∃ tag tsn draws n, tag ≠ 0 ∧ exec .associate s = .next (after tag tsn draws n)) ∧
        (∀ k tag tsn rest, tag ≠ 0 → s.draws = List.replicate k 0 ++ tag :: tsn :: rest →
          exec .associate s = .next (after tag tsn rest s.freeDraws))) ∧
    (s.terminated = true ∨ s.state ≠ .closed →
      exec .associate s = .next { s with log := s.log ++ [.commandIgnored 0x03] })

/-- 46 R314; that the state reads Closed and the queue is discarded are the spec's decision D29. -/
def Obligations.AbortTerminates : Prop :=
  ∀ s : State, s.ingress = none →
    (s.terminated = true → exec .abort s = .next s) ∧
    (s.terminated = false →
      exec .abort s = .next { s with
        timers := ⟨.idle, .idle, .idle⟩
        events := s.events ++ (if s.timers.init = .idle then [] else [.timerCancel .init])
          ++ (if s.timers.cookie = .idle then [] else [.timerCancel .cookie])
          ++ (if s.timers.sack = .idle then [] else [.timerCancel .sack])
        queue := []
        pendingData := false
        pendingAcknowledge := false
        state := .closed
        terminated := true })

/-- 46 R316: the three refusals in order, and the event on the empty to non-empty edge alone. The second part gives
the command; rules of the block use the first and go on whatever the result. Refusing an ill-formed record and
`QUEUE_MAX` are the spec's decision D32; a command's result goes to `results` (log 10). -/
def Obligations.EnqueueRule : Prop :=
  ∀ (s : State) (c : Chunk),
    (s.terminated = true → s.enqueueResult c = (false, s)) ∧
    (s.terminated = false → c.wf s.params.codes = false →
      s.enqueueResult c =
        (false, { s with log := s.log ++ [.enqueueRefused .notWellFormed (c.typeCode s.params.codes)] })) ∧
    (∀ q, s.terminated = false → c.wf s.params.codes = true → s.params.queueMax = some q → q ≤ s.queue.length →
      s.enqueueResult c =
        (false, { s with log := s.log ++ [.enqueueRefused .queueFull (c.typeCode s.params.codes)] })) ∧
    (s.terminated = false → c.wf s.params.codes = true → (∀ q, s.params.queueMax = some q → s.queue.length < q) →
      s.enqueueResult c = (true,
        if s.queue = [] then
          { s with queue := [c], pendingData := true, events := s.events ++ [.pendingData] }
        else { s with queue := s.queue ++ [c] })) ∧
    s.enqueue c = (s.enqueueResult c).2 ∧
    (s.ingress = none →
      exec (.enqueue c) s = .next { (s.enqueueResult c).2 with
        results := s.results ++ [.bool (s.enqueueResult c).1] })

/-- 46 R320: the tests in order, a rejected packet changing nothing but the log and the result, an accepted one starting
the chunk loop at offset 12 (log 2). A terminated block answers `false` (R319). The three comparisons are the spec's
decision D9, the checksum test D10. -/
def Obligations.HeaderAcceptance : Prop :=
  ∀ (s : State) (rx : List Byte), s.ingress = none →
    (s.terminated = true → exec (.writePacket rx) s = .next { s with results := s.results ++ [.bool false] }) ∧
    (s.terminated = false → rx.length < 12 →
      exec (.writePacket rx) s = .next { s with
        log := s.log ++ [.truncatedHeader rx.length], results := s.results ++ [.bool false] }) ∧
    (∀ (s1 s0 d1 d0 t3 t2 t1 t0 c0 c1 c2 c3 : Byte) (body : List Byte), s.terminated = false →
      rx = [s1, s0, d1, d0, t3, t2, t1, t0, c0, c1, c2, c3] ++ body →
      (ofBe2 s1 s0 ≠ s.remotePort ∨ ofBe2 d1 d0 ≠ s.localPort →
        exec (.writePacket rx) s = .next { s with
          log := s.log ++ [.portMismatch (ofBe2 s1 s0) (ofBe2 d1 d0)]
          results := s.results ++ [.bool false] }) ∧
      (ofBe2 s1 s0 = s.remotePort → ofBe2 d1 d0 = s.localPort →
        (ofBe4 t3 t2 t1 t0 ≠ s.localVerificationTag →
          exec (.writePacket rx) s = .next { s with
            log := s.log ++ [.tagMismatch (ofBe4 t3 t2 t1 t0)], results := s.results ++ [.bool false] }) ∧
        (ofBe4 t3 t2 t1 t0 = s.localVerificationTag →
          (s.params.verifyRxChecksum = true →
            crc32c ([s1, s0, d1, d0, t3, t2, t1, t0, 0, 0, 0, 0] ++ body) ≠ ofBe4 c3 c2 c1 c0 →
            exec (.writePacket rx) s = .next { s with
              log := s.log ++ [.checksumMismatch (ofBe4 c3 c2 c1 c0)]
              results := s.results ++ [.bool false] }) ∧
          (s.params.verifyRxChecksum = false ∨
            crc32c ([s1, s0, d1, d0, t3, t2, t1, t0, 0, 0, 0, 0] ++ body) = ofBe4 c3 c2 c1 c0 →
            exec (.writePacket rx) s = .next (s.atChunk (Space.ofBytes rx) 12)))))

/-- 46 R324, the three calls that produce no packet: nothing is written, nothing changes but the result, and the two
registers that show the host's own buffer (log 9). The third case is the spec's decision D31. -/
def Obligations.ReadPacketNothing : Prop :=
  ∀ (s : State) (tx : List Byte), s.ingress = none →
    (s.terminated = true ∨ s.queue = [] ∨ ∃ c q, s.queue = c :: q ∧ tx.length < 12 + c.size s.params.codes) →
    exec (.readPacket tx) s = .next { s with
      tx := Space.ofBytes tx, wp := 0, results := s.results ++ [.length 0] }

/-- 46 R325, R326, R328, 45 R296: the packet is the header, the checksum over the packet with its field zero, and the
chunks of the queue that fit in order; they leave the queue; every byte from `wp` on is what the host left there
(10 R43). Which tag and ports go out is the spec's decision D9; `tx` and `wp` after the command are log 9. -/
def Obligations.ReadPacketEgress : Prop :=
  ∀ (s : State) (tx : List Byte) (c : Chunk) (q : List Chunk), s.ingress = none → s.terminated = false →
    (∀ r ∈ s.queue, r.wf s.params.codes = true) → s.queue = c :: q →
    12 + c.size s.params.codes ≤ tx.length →
    ∃ (sp : Space) (out : List Chunk) (head body : List Byte),
      out = fitting s.params.codes (tx.length - 12) 0 s.queue ∧ out ≠ [] ∧
      head = be2 s.localPort ++ (be2 s.remotePort ++ be4 s.remoteVerificationTag) ∧
      body = out.flatMap (Chunk.image s.params.codes) ∧
      s.queue = out ++ s.queue.drop out.length ∧
      exec (.readPacket tx) s = .next { s with
        tx := sp
        wp := 12 + body.length
        queue := s.queue.drop out.length
        pendingData := if s.queue.drop out.length = [] then false else s.pendingData
        results := s.results ++ [.length (12 + body.length)] } ∧
      sp.size = tx.length ∧
      sp.readBytes 0 (12 + body.length) =
        some (head ++ (le4 (crc32c (head ++ (zeros 4 ++ body))) ++ body)) ∧
      ∀ a, 12 + body.length ≤ a → sp.byteAt a = (Space.ofBytes tx).byteAt a

/-- 46 R330, R331: the two status commands answer and change nothing, in every condition; after `Abort` the state
answered is Closed. -/
def Obligations.StatusCommands : Prop :=
  ∀ s : State, s.ingress = none →
    exec .getState s = .next { s with results := s.results ++ [.state s.state] } ∧
    exec .getPendingData s = .next { s with results := s.results ++ [.bool s.pendingData] } ∧
    (OperationInv s → s.terminated = true →
      exec .getState s = .next { s with results := s.results ++ [.state .closed] })

/-- 46 R332, and 60 R424 for the fires: after `Abort` no command changes a register, and the answers are fixed (the two
registers that show the host's own buffer are log 9). The codes in the entries of 60 R400 (30 R109, decision D2; R311
writes SetPort for both port commands) are the model's reading (log 21, DEDUCED). -/
def Obligations.TerminatedCommands : Prop :=
  ∀ (s : State), OperationInv s → s.terminated = true →
    (∀ p, exec (.setLocalPort p) s = .next { s with log := s.log ++ [.commandIgnored 0x01] }) ∧
    (∀ p, exec (.setRemotePort p) s = .next { s with log := s.log ++ [.commandIgnored 0x02] }) ∧
    exec .associate s = .next { s with log := s.log ++ [.commandIgnored 0x03] } ∧
    exec .abort s = .next s ∧
    (∀ c, exec (.enqueue c) s = .next { s with results := s.results ++ [.bool false] }) ∧
    (∀ rx, exec (.writePacket rx) s = .next { s with results := s.results ++ [.bool false] }) ∧
    (∀ tx, exec (.readPacket tx) s = .next { s with
      tx := Space.ofBytes tx, wp := 0, results := s.results ++ [.length 0] }) ∧
    exec .timerFireInit s = .next s ∧ exec .timerFireCookie s = .next s ∧ exec .timerFireSack s = .next s ∧
    exec .getState s = .next { s with results := s.results ++ [.state .closed] } ∧
    exec .getPendingData s = .next { s with results := s.results ++ [.bool false] }

/-! ## Timer fires -/

/-- 60 R421, in its own state; when the counter is compared and counted is the spec's decision D25. -/
def Obligations.InitTimerFire : Prop :=
  ∀ (s : State) (d : Nat), s.ingress = none → s.timers.init = .armed d → s.state = .cookieWait →
    (s.initRetransmissions < s.params.maxInitRetransmits → ∃ t : State,
      t = State.enqueue
        (.init 0 ⟨s.localVerificationTag, s.params.localArwnd, s.params.numOutboundStreams,
          s.params.numInboundStreams, s.localInitialTSN, [], [], none, s.params.initSupportedExtensions,
          s.params.initForwardTSNSupported, []⟩ none)
        { s with timers := { s.timers with init := .idle }, initRetransmissions := s.initRetransmissions + 1 } ∧
      exec .timerFireInit s = .next { t with
        timers := { s.timers with init := .armed s.params.initRetransmitTimeout }
        events := t.events ++ [.timerArm .init s.params.initRetransmitTimeout] }) ∧
    (s.params.maxInitRetransmits ≤ s.initRetransmissions →
      exec .timerFireInit s = .next { s with
        timers := { s.timers with init := .idle }, log := s.log ++ [.retryCeiling .init], state := .closed })

/-- 60 R422, in its own state; the one counter and the stored cookie are the spec's decisions D25, D6. -/
def Obligations.CookieTimerFire : Prop :=
  ∀ (s : State) (d : Nat), s.ingress = none → s.timers.cookie = .armed d → s.state = .cookieEchoed →
    (s.initRetransmissions < s.params.maxInitRetransmits → ∃ t : State,
      t = State.enqueue (.cookieEcho 0 s.peerCookie)
        { s with timers := { s.timers with cookie := .idle }, initRetransmissions := s.initRetransmissions + 1 } ∧
      exec .timerFireCookie s = .next { t with
        timers := { s.timers with cookie := .armed s.params.initRetransmitTimeout }
        events := t.events ++ [.timerArm .cookie s.params.initRetransmitTimeout] }) ∧
    (s.params.maxInitRetransmits ≤ s.initRetransmissions →
      exec .timerFireCookie s = .next { s with
        timers := { s.timers with cookie := .idle }, log := s.log ++ [.retryCeiling .cookie], state := .closed })

/-- 60 R423: in Established the fire is `Acknowledge` with the slot already idle, and cancels nothing; in another state
it is ignored. -/
def Obligations.SackTimerFire : Prop :=
  ∀ (s : State) (d : Nat), s.ingress = none → s.timers.sack = .armed d →
    (s.state = .established →
      ∃ t : State, t = State.acknowledge { s with timers := { s.timers with sack := .idle } } ∧
        exec .timerFireSack s = .next t ∧ t.timers = { s.timers with sack := .idle } ∧
        Event.timerCancel .sack ∉ t.events.drop s.events.length ∧ s.events <+: t.events ∧
        t.pendingAcknowledge = false ∧ t.state = .established) ∧
    (s.state ≠ .established →
      exec .timerFireSack s = .next { s with
        timers := { s.timers with sack := .idle }, log := s.log ++ [.timerIgnored .sack s.state] })

/-- 60 R424; the spec's decision D26. -/
def Obligations.FiresThatFindNothing : Prop :=
  ∀ s : State, s.ingress = none →
    (s.timers.init = .idle → exec .timerFireInit s = .next s) ∧
    (s.timers.cookie = .idle → exec .timerFireCookie s = .next s) ∧
    (s.timers.sack = .idle → exec .timerFireSack s = .next s) ∧
    (∀ d, s.timers.init = .armed d → s.state ≠ .cookieWait →
      exec .timerFireInit s = .next { s with
        timers := { s.timers with init := .idle }, log := s.log ++ [.timerIgnored .init s.state] }) ∧
    (∀ d, s.timers.cookie = .armed d → s.state ≠ .cookieEchoed →
      exec .timerFireCookie s = .next { s with
        timers := { s.timers with cookie := .idle }, log := s.log ++ [.timerIgnored .cookie s.state] }) ∧
    (∀ d, s.timers.sack = .armed d → s.state ≠ .established →
      exec .timerFireSack s = .next { s with
        timers := { s.timers with sack := .idle }, log := s.log ++ [.timerIgnored .sack s.state] })

/-! ## Chunk instructions -/

/-- 44 R250 to R253 for the chunks whose body is parsed whole (all but INIT, INIT-ACK, HEARTBEAT, HEARTBEAT-ACK): the
record goes to `Process` with the cursor at the next chunk, or the chunk is skipped with one log entry. -/
def Obligations.WholeBodyChunk : Prop :=
  ∀ (i : Instr) (t : Byte) (c : RawChunk) (s : State) (rx : Space) (pc : Nat), s.params.codes.Distinct →
    i.chunkOperands s.params.codes = some (t, c) → i.wellFormed s.params.codes = true →
    i ∉ [.init c, .initAck c, .heartbeat c, .heartbeatAck c] → s.ingress = some ⟨rx, pc, none⟩ →
    (∀ r, parseBody s.params.codes t c.flag c.body = some r →
      exec i s = .next (process r (s.atChunk rx (min (pc + pad4 c.length.toNat) rx.size)))) ∧
    (parseBody s.params.codes t c.flag c.body = none →
      exec i s = .next (s.chunkFailed rx pc (min (pc + pad4 c.length.toNat) rx.size) t))

/-- 42 R181, R191, 43 R237, R240: the four chunks whose body goes on as parameters. The fixed part is read; with nothing
after it an INIT or INIT-ACK is complete, else the parameter list is open (log 2). -/
def Obligations.ListChunk : Prop :=
  ∀ (c : RawChunk) (s : State) (rx : Space) (pc next : Nat), c.wellFormed = true →
    s.ingress = some ⟨rx, pc, none⟩ → next = min (pc + pad4 c.length.toNat) rx.size →
    (c.body.length < 16 →
      exec (.init c) s = .next (s.chunkFailed rx pc next s.params.codes.ctInit) ∧
      exec (.initAck c) s = .next (s.chunkFailed rx pc next s.params.codes.ctInitAck)) ∧
    (16 ≤ c.body.length → ∃ tag arwnd out inb itsn r tail,
      c.body = be4 tag ++ (be4 arwnd ++ (be2 out ++ (be2 inb ++ (be4 itsn ++ tail)))) ∧
      r = ⟨tag, arwnd, out, inb, itsn, [], [], none, none, false, []⟩ ∧
      (tail = [] → exec (.init c) s = .next (process (.init c.flag r none) (s.atChunk rx next)) ∧
        exec (.initAck c) s = .next (process (.initAck c.flag r none) (s.atChunk rx next))) ∧
      (tail ≠ [] →
        exec (.init c) s = .next { s with
          ingress := some ⟨rx, pc, some ⟨.init c.flag r none, ⟨0, tail⟩, next⟩⟩ } ∧
        exec (.initAck c) s = .next { s with
          ingress := some ⟨rx, pc, some ⟨.initAck c.flag r none, ⟨0, tail⟩, next⟩⟩ })) ∧
    (c.body.length < 4 →
      exec (.heartbeat c) s = .next (s.chunkFailed rx pc next s.params.codes.ctHeartbeat) ∧
      exec (.heartbeatAck c) s = .next (s.chunkFailed rx pc next s.params.codes.ctHeartbeatAck)) ∧
    (4 ≤ c.body.length →
      exec (.heartbeat c) s = .next { s with
        ingress := some ⟨rx, pc, some ⟨.heartbeat c.flag none, ⟨0, c.body⟩, next⟩⟩ } ∧
      exec (.heartbeatAck c) s = .next { s with
        ingress := some ⟨rx, pc, some ⟨.heartbeatAck c.flag none, ⟨0, c.body⟩, next⟩⟩ })

/-- 44 R251, one step of the machine on the bytes of the packet: a `length` below 4 or beyond the packet drops the rest
of it and changes nothing else; the spec's decision D12. -/
def Obligations.InvalidChunkLength : Prop :=
  ∀ (s : State) (rx : Space) (pc : Nat) (l : U16), s.ingress = some ⟨rx, pc, none⟩ → pc + 4 ≤ rx.size →
    l = ofBe2 (rx.byteAt (pc + 2)) (rx.byteAt (pc + 3)) → (l.toNat < 4 ∨ rx.size - pc < l.toNat) →
    step s = .next { s with
      log := s.log ++ [.chunkLengthInvalid pc (rx.byteAt pc) l], ingress := some ⟨rx, rx.size, none⟩ }

/-- 47 R365 for the chunks without a row in any state, from their encodings: their bodies may be anything that parses
(43 R229, 44 R258, R264, R267, R268), and a body that does not parse fails the chunk. What "ignored" means is the spec's
decision D43. -/
def Obligations.ChunksIgnoredInEveryState : Prop :=
  ∀ (c : RawChunk) (s : State) (rx : Space) (pc next : Nat) (k : Codes), c.wellFormed = true → k = s.params.codes →
    s.ingress = some ⟨rx, pc, none⟩ → next = min (pc + pad4 c.length.toNat) rx.size →
    ∃ ignored : Byte → State,
      (∀ t, ignored t = { s with
        log := s.log ++ [.stateViolation s.state t], ingress := some ⟨rx, next, none⟩ }) ∧
      exec (.abortChunk c) s = .next (ignored k.ctAbort) ∧
      exec (.error c) s = .next (ignored k.ctError) ∧
      exec (.reConfig c) s = .next (ignored k.ctReConfig) ∧
      exec (.padding c) s = .next (ignored k.ctPadding) ∧
      exec (.forwardTSN c) s = .next (ignored k.ctForwardTSN) ∧
      (∀ t, exec (.unknown t c) s = .next (ignored t)) ∧
      exec (.shutdown c) s =
        .next (if c.body.length = 4 then ignored k.ctShutdown else s.chunkFailed rx pc next k.ctShutdown) ∧
      exec (.shutdownAck c) s =
        .next (if c.body.length = 0 then ignored k.ctShutdownAck else s.chunkFailed rx pc next k.ctShutdownAck) ∧
      exec (.shutdownComplete c) s =
        .next (if c.body.length = 0 then ignored k.ctShutdownComplete
          else s.chunkFailed rx pc next k.ctShutdownComplete) ∧
      (c.body.length < 12 → exec (.sack c) s = .next (s.chunkFailed rx pc next k.ctSack)) ∧
      (∀ (cum a : U32) (n m : U16) (lists : List Byte),
        c.body = be4 cum ++ (be4 a ++ (be2 n ++ (be2 m ++ lists))) →
        exec (.sack c) s =
          .next (if lists.length = 4 * n.toNat + 4 * m.toNat then ignored k.ctSack
            else s.chunkFailed rx pc next k.ctSack))

/-- 47 R365: every pair of a state and a record without a row in the table of R350 is logged and has no other effect
(the spec's decision D43); so is an INIT-ACK without its cookie (R354, decision D27), whose entry holds the state and the
type of 60 R400 where R354 writes other information: the model's reading (log 21, DEDUCED). -/
def Obligations.PairsWithoutARowIgnored : Prop :=
  ∀ (c : Chunk) (s : State),
    (∀ f r l, c = .init f r l → s.state ≠ .closed) →
    (∀ f x, c = .cookieEcho f x → s.state ≠ .closed) →
    (∀ f r ck, c = .initAck f r ck → s.state = .cookieWait → ck = none) →
    (∀ f, c = .cookieAck f → s.state ≠ .cookieEchoed) →
    (∀ f r, c = .data f r → s.state ≠ .established) →
    process c s = { s with log := s.log ++ [.stateViolation s.state (c.typeCode s.params.codes)] }

/-- 47 R352, R351: INIT in Closed. The drawn tag is never 0; the draws are as in `AssociateOpens` (log 6). The fresh
tag, the stored peer tag and the unused fields are the spec's decisions D7, D9, D42. -/
def Obligations.InitInClosed : Prop :=
  ∀ (s : State) (f : Byte) (r : InitRec) (life : Option U32), s.state = .closed →
    ∃ after : U32 → U32 → List U32 → Nat → State,
      (∀ tag tsn draws n, after tag tsn draws n = State.enqueue
        (.initAck 0 ⟨tag, s.params.localArwnd, s.params.numOutboundStreams, s.params.numInboundStreams, tsn, [], [],
          none, s.params.initSupportedExtensions, s.params.initForwardTSNSupported, []⟩ (some s.params.stateCookie))
        { s with
          remoteVerificationTag := r.initiateTag
          localVerificationTag := tag
          localInitialTSN := tsn
          draws := draws
          freeDraws := n }) ∧
      (∃ tag tsn draws n, tag ≠ 0 ∧ process (.init f r life) s = after tag tsn draws n) ∧
      (∀ k tag tsn rest, tag ≠ 0 → s.draws = List.replicate k 0 ++ tag :: tsn :: rest →
        process (.init f r life) s = after tag tsn rest s.freeDraws)

/-- 47 R354: INIT-ACK in CookieWait, with its state cookie and without; what is stored, the counter and the missing
cookie are the spec's decisions D6, D25, D27. The entry for the missing cookie holds the state and the type of 60 R400
where R354 writes other information: the model's reading (log 21, DEDUCED). -/
def Obligations.InitAckInCookieWait : Prop :=
  ∀ (s : State) (f : Byte) (r : InitRec), s.state = .cookieWait →
    process (.initAck f r none) s = { s with log := s.log ++ [.stateViolation .cookieWait s.params.codes.ctInitAck] } ∧
    ∀ cookie : List Byte, ∃ t : State,
      t = State.enqueue (.cookieEcho 0 cookie) { s with
        timers := { s.timers with init := .idle }
        events := s.events ++ (if s.timers.init = .idle then [] else [.timerCancel .init])
        remoteVerificationTag := r.initiateTag
        peerCookie := cookie
        initRetransmissions := 0 } ∧
      process (.initAck f r (some cookie)) s = { t with
        timers := ⟨.idle, .armed s.params.initRetransmitTimeout, s.timers.sack⟩
        events := t.events ++ [.timerArm .cookie s.params.initRetransmitTimeout]
        state := .cookieEchoed }

/-- 47 R353: COOKIE-ECHO in Closed; its cookie is not looked at. In every other state it is ignored (R365), the spec's
decision D43. -/
def Obligations.CookieEchoEstablishes : Prop :=
  ∀ (c : RawChunk) (s : State) (rx : Space) (pc next : Nat), c.wellFormed = true →
    s.ingress = some ⟨rx, pc, none⟩ → next = min (pc + pad4 c.length.toNat) rx.size →
    (s.state = .closed →
      exec (.cookieEcho c) s =
        .next { State.enqueue (.cookieAck 0) (s.atChunk rx next) with state := .established }) ∧
    (s.state ≠ .closed →
      exec (.cookieEcho c) s = .next { s with
        log := s.log ++ [.stateViolation s.state s.params.codes.ctCookieEcho], ingress := some ⟨rx, next, none⟩ })

/-- 47 R356: COOKIE-ACK in CookieEchoed. In every other state it is ignored (R365), the spec's decision D43; with a body
it fails to parse (42 R205), the spec's decision D17. -/
def Obligations.CookieAckEstablishes : Prop :=
  ∀ (c : RawChunk) (s : State) (rx : Space) (pc next : Nat), c.wellFormed = true →
    s.ingress = some ⟨rx, pc, none⟩ → next = min (pc + pad4 c.length.toNat) rx.size →
    (c.body = [] → s.state = .cookieEchoed →
      exec (.cookieAck c) s = .next { s with
        timers := { s.timers with cookie := .idle }
        events := s.events ++ (if s.timers.cookie = .idle then [] else [.timerCancel .cookie])
        state := .established
        ingress := some ⟨rx, next, none⟩ }) ∧
    (c.body = [] → s.state ≠ .cookieEchoed →
      exec (.cookieAck c) s = .next { s with
        log := s.log ++ [.stateViolation s.state s.params.codes.ctCookieAck], ingress := some ⟨rx, next, none⟩ }) ∧
    (c.body ≠ [] → exec (.cookieAck c) s = .next (s.chunkFailed rx pc next s.params.codes.ctCookieAck))

/-- 47 R358, R359, 43 R221: DATA, from its encoding. That the timeout is assigned, the indication event and what
"ignored" means are the spec's decisions D21, D33, D43. At the default widths the extended number is `Wrap` of the TSN
(41 R162). -/
def Obligations.DataInEstablished : Prop :=
  ∀ (c : RawChunk) (s : State) (rx : Space) (pc next : Nat), c.wellFormed = true →
    s.ingress = some ⟨rx, pc, none⟩ → next = min (pc + pad4 c.length.toNat) rx.size →
    (∀ (win : Nat) (w : SeqWrapper 32 64) (tsn : U32), s.wrapper = ⟨32, 64, win, w⟩ →
      s.wrapper.wrapTSN tsn = ((w.wrap win tsn).1, ⟨32, 64, win, (w.wrap win tsn).2⟩)) ∧
    (c.body.length < 12 → exec (.data c) s = .next (s.chunkFailed rx pc next s.params.codes.ctData)) ∧
    (∀ (tsn : U32) (sid ssn : U16) (ppid : U32) (payload : List Byte) (t : U64) (m : List U64),
      c.body = be4 tsn ++ (be2 sid ++ (be2 ssn ++ (be4 ppid ++ payload))) →
      t = (s.wrapper.wrapTSN tsn).1 → m = insertTSN t s.receivedTSNs →
      (s.state = .established →
        exec (.data c) s = .next { s with
          ingress := some ⟨rx, next, none⟩
          wrapper := (s.wrapper.wrapTSN tsn).2
          receivedTSNs := m
          pendingAcknowledgeTimeout :=
            if s.lastReceivedTSNValid = false ∨ hasGap m = true ∨ t ∈ s.receivedTSNs ∨ s.timers.sack ≠ .idle then 0
            else s.params.sackTimeout
          pendingAcknowledge := true
          events := s.events ++ [.dataIndication (.data c.flag ⟨tsn, sid, ssn, ppid, payload⟩)] }) ∧
      (s.state ≠ .established →
        exec (.data c) s = .next { s with
          log := s.log ++ [.stateViolation s.state s.params.codes.ctData], ingress := some ⟨rx, next, none⟩ }))

/-! ## Parameter instructions -/

/-- 42 R183, 43 R237: a parameter that lies inside the open list. Its value is stored, the padding skipped; with bytes
left the list stays open, else the record is complete and goes to `Process`. A value that cannot be stored fails the
chunk, which is skipped. Where the value goes is `ParameterStoring`. -/
def Obligations.ParameterStep : Prop :=
  ∀ (i : Instr) (t : U16) (p : RawParam) (s : State) (rx : Space) (pc size : Nat) (q : ParamList) (k : Codes),
    k = s.params.codes → k.Distinct →
    i.paramOperands k = some (t, p) → i.wellFormed k = true → s.ingress = some ⟨rx, pc, some q⟩ →
    size = pad4 (4 + p.value.length) → 4 + p.value.length ≤ q.reader.rest.length → q.reader.p % 4 = 0 →
    (storeParam k t p.value q.building = none →
      exec i s = .next (s.chunkFailed rx pc q.next (q.building.typeCode k))) ∧
    (∀ b, storeParam k t p.value q.building = some b →
      (size < q.reader.rest.length →
        exec i s = .next { s with
          ingress := some ⟨rx, pc, some ⟨b, ⟨q.reader.p + size, q.reader.rest.drop size⟩, q.next⟩⟩ }) ∧
      (q.reader.rest.length ≤ size →
        ∃ r, b.close = some r ∧ exec i s = .next (process r (s.atChunk rx q.next))))

/-- 42 R183, 30 R103: a parameter length below 4 or beyond the list, and 1 to 3 stray bytes where a header should start,
fail the chunk, which is skipped. Stray bytes as an error are the spec's decision D16. -/
def Obligations.ParameterListErrors : Prop :=
  (∀ (i : Instr) (t : U16) (p : RawParam) (s : State) (rx : Space) (pc : Nat) (q : ParamList),
    i.paramOperands s.params.codes = some (t, p) → p.wellFormed = false → s.ingress = some ⟨rx, pc, some q⟩ →
    exec i s = .next (s.chunkFailed rx pc q.next (q.building.typeCode s.params.codes))) ∧
  (∀ (s : State) (rx : Space) (pc : Nat) (q : ParamList) (t1 t0 l1 l0 : Byte) (tail : List Byte),
    s.ingress = some ⟨rx, pc, some q⟩ → q.reader.rest = t1 :: t0 :: l1 :: l0 :: tail →
    ((ofBe2 l1 l0).toNat < 4 ∨ 4 + tail.length < (ofBe2 l1 l0).toNat) →
    step s = .next (s.chunkFailed rx pc q.next (q.building.typeCode s.params.codes))) ∧
  (∀ (s : State) (rx : Space) (pc : Nat) (q : ParamList),
    s.ingress = some ⟨rx, pc, some q⟩ → 1 ≤ q.reader.rest.length → q.reader.rest.length ≤ 3 →
    step s = .next (s.chunkFailed rx pc q.next (q.building.typeCode s.params.codes)))

/-! ## Steps -/

/-- One step fetches, decodes and executes: the next command between operations, the next parameter of an open list,
the chunk at `pc`; with no command waiting the state stays (60 R442). That commands wait in the list `port` is the
model's choice (log 1), that a parameter of an open list is a step of its own is log 2, and that an unknown command
code is refused is log 12. -/
def Obligations.StepRunsDecoded : Prop :=
  (∀ (s : State) (c : PortCommand) (rest : List PortCommand), s.ingress = none → s.port = c :: rest →
    (∀ i, decode s.params.codes (.command c) = .ok i → step s = exec i { s with port := rest }) ∧
    (∀ e, decode s.params.codes (.command c) = .error e → step s = .refused (.undecodable e))) ∧
  (∀ s : State, s.ingress = none → s.port = [] → step s = .next s) ∧
  (∀ (s : State) (rx : Space) (pc : Nat) (i : Instr), s.ingress = some ⟨rx, pc, none⟩ → pc + 4 ≤ rx.size →
    decode s.params.codes (.chunk (rx.mem.readBytes pc (rx.size - pc))) = .ok i →
      step s = exec i s) ∧
  (∀ (s : State) (rx : Space) (pc : Nat) (q : ParamList) (i : Instr), s.ingress = some ⟨rx, pc, some q⟩ →
    4 ≤ q.reader.rest.length → decode s.params.codes (.param q.reader.rest) = .ok i →
      step s = exec i s)

/-- The table word placed by `withFetchWord` is what the next step runs (log 15). -/
def Obligations.PlacedWordRuns : Prop :=
  ∀ (s : State) (nbits w : Nat) (i : Instr), decodeTableWord nbits w = some i →
    (i.commandCode ≠ none → step (s.withFetchWord nbits w) = exec i { s with ingress := none }) ∧
    (i.commandCode = none → step (s.withFetchWord nbits w) = exec i (s.withFetchWord nbits w))

/-- 46 R323, R319: the step at the end of a packet (fewer than 4 bytes left, R322). -/
def Obligations.EndOfPacket : Prop :=
  ∀ (s : State) (rx : Space) (pc : Nat), s.ingress = some ⟨rx, pc, none⟩ → rx.size < pc + 4 →
    (s.pendingAcknowledge = false →
      step s = .next { s with ingress := none, results := s.results ++ [.bool true] }) ∧
    (s.pendingAcknowledge = true → s.pendingAcknowledgeTimeout = 0 →
      step s = .next { s.acknowledge with ingress := none, results := s.results ++ [.bool true] }) ∧
    (s.pendingAcknowledge = true → s.pendingAcknowledgeTimeout ≠ 0 → s.timers.sack ≠ .idle →
      step s = .next { s with ingress := none, results := s.results ++ [.bool true] }) ∧
    (s.pendingAcknowledge = true → s.pendingAcknowledgeTimeout ≠ 0 → s.timers.sack = .idle →
      step s = .next { s with
        timers := { s.timers with sack := .armed s.pendingAcknowledgeTimeout }
        events := s.events ++ [.timerArm .sack s.pendingAcknowledgeTimeout]
        ingress := none
        results := s.results ++ [.bool true] })

/-- 40 R141, 20 R68: from EVERY state a step gives a next state, the one exception being a command code that is in no
row of 30 R109. No buffer primitive is called beyond its bounds, no error stops the block (60 R400). -/
def Obligations.StepNeverFaults : Prop :=
  ∀ s : State, (∃ s', step s = .next s') ∨
    ∃ c rest, s.ingress = none ∧ s.port = c :: rest ∧ (∀ i : Instr, i.commandCode ≠ some c.code) ∧
      step s = .refused (.undecodable (.unknownCommand c.code))

/-- The steps on one chunk, however many parameters it holds, have the effect of `ParseChunk` followed by `Process`
(44 R250, 46 R322): cutting a chunk into steps (log 2) changes nothing. -/
def Obligations.ChunkStepsAreOneOperation : Prop :=
  ∀ (s : State) (rx : Space) (pc : Nat), s.ingress = some ⟨rx, pc, none⟩ → pc + 4 ≤ rx.size →
    ∃ n, run n s = some (chunkOperation (rx.mem.readBytes pc (rx.size - pc)) pc s)

/-- The steps of an accepted WritePacket end, and have the effect of the loop of 46 R322 and the decision of R323 done
as one operation. -/
def Obligations.WritePacketStepsAreOneOperation : Prop :=
  ∀ (s : State) (rx : Space) (pc : Nat), s.ingress = some ⟨rx, pc, none⟩ →
    ∃ n, run n s = some (chunkLoop (rx.size + 1) s) ∧ (chunkLoop (rx.size + 1) s).ingress = none

/-! ## Reset and what every step keeps -/

/-- 10 R58, and the defaults of the parameters that have one (00 R9, R10, R11, R12; the type codes are PRESUMED, log 7).
Every value but `state` is the spec's own choice (D4, D5, D6, D20, D29; log 4); that no packet is in progress is R40. -/
def Obligations.ResetValues : Prop :=
  let s := State.reset
  s.state = .closed ∧ s.localPort = 0 ∧ s.remotePort = 0 ∧ s.localVerificationTag = 0 ∧
  s.remoteVerificationTag = 0 ∧ s.localInitialTSN = 0 ∧ s.lastReceivedTSNValid = false ∧ s.lastReceivedTSN = 0 ∧
  s.wrapper = ⟨32, 64, 2147483648, ⟨0, 0, 0⟩⟩ ∧ s.initRetransmissions = 0 ∧
  s.timers.init = .idle ∧ s.timers.cookie = .idle ∧ s.timers.sack = .idle ∧ s.pendingAcknowledge = false ∧
  s.pendingAcknowledgeTimeout = 0 ∧ s.pendingData = false ∧ s.terminated = false ∧ s.peerCookie = [] ∧
  s.queue = [] ∧ s.receivedTSNs = [] ∧ s.events = [] ∧ s.log = [] ∧ s.ingress = none ∧
  s.params.maxInitRetransmits = 10 ∧ s.params.initRetransmitTimeout = 100 ∧ s.params.sackTimeout = 100 ∧
  s.params.initSupportedExtensions = none ∧ s.params.initForwardTSNSupported = false ∧ s.params.queueMax = none ∧
  s.params.verifyRxChecksum = false ∧ s.params.codes = Codes.default

/-- Every invariant below holds after reset, and the type codes are distinct (93 U15). -/
def Obligations.ResetKeepsInvariants : Prop :=
  Rule59 State.reset ∧ MemoryInv State.reset ∧ CursorInv State.reset ∧ QueueInv State.reset ∧
  TrackerInv State.reset ∧ LegalState State.reset ∧ ActiveOpenTagged State.reset ∧ State.reset.params.codes.Distinct

/-- 10 R59, whole and as written after every step (`Rule59`) but one: the Abort of a block with an acknowledgement
pending, whose flag 46 R314 clears and whose multiset and point R314, 10 R23, R45 and 70 R452 keep (log 16). That step
keeps all the rest (`OperationInv`), and leaves (c) true exactly when the multiset lay above the point before it. -/
def Obligations.StepKeepsOperationInv : Prop :=
  ∀ s s' : State, OperationInv s → step s = .next s' →
    OperationInv s' ∧
    (s'.terminated = s.terminated ∨ s.pendingAcknowledge = false → Rule59 s → Rule59 s') ∧
    (s.terminated = false → s'.terminated = true →
      (TrackerAbovePoint s' ↔
        (s.lastReceivedTSNValid = true → ∀ t ∈ s.receivedTSNs, s.lastReceivedTSN.toNat < t.toNat)))

/-- The cells of RX and TX stay canonical and inside their spaces (log 8). -/
def Obligations.StepKeepsMemoryInv : Prop :=
  ∀ s s' : State, MemoryInv s → step s = .next s' → MemoryInv s'

/-- 10 R40, 44 R252, 20 R64, R66, R77: the cursor stays inside the packet, on a multiple of 4 unless clamped; inside one
WritePacket it never moves back and the packet's bytes do not change. -/
def Obligations.StepKeepsCursorInv : Prop :=
  ∀ s s' : State, CursorInv s → step s = .next s' →
    CursorInv s' ∧ ∀ g g', s.ingress = some g → s'.ingress = some g' → g'.rx = g.rx ∧ g.pc ≤ g'.pc

/-- 46 R316, 47 R358, 00 R7: the queue holds well-formed records, never more than `QUEUE_MAX`; the multiset stays in
order; the state register stays one of the four values that are written. -/
def Obligations.StepKeepsQueueTrackerState : Prop :=
  ∀ s s' : State, step s = .next s' →
    (QueueInv s → QueueInv s') ∧ (TrackerInv s → TrackerInv s') ∧ (LegalState s → LegalState s')

/-- 10 R20: the ports are immutable once the handshake has begun, and it stays begun. -/
def Obligations.PortsImmutableOnceBegun : Prop :=
  ∀ s s' : State, ActiveOpenTagged s → step s = .next s' →
    ActiveOpenTagged s' ∧
    (HandshakeBegun s → HandshakeBegun s' ∧ s'.localPort = s.localPort ∧ s'.remotePort = s.remotePort)

/-- The latch is never cleared (10 R30), the event stream and the log only grow (10 R47, R48), the wrapper's mark and the
cumulative point never go back (41 R163 (vi), 10 R23). That the parameters of 00 R9 to R12 are constant fields of State is
the model's choice (logs 5 and 7; the wrapper's widths and window, log 23), and so is the list of results (log 10). -/
def Obligations.StepKeepsHistory : Prop :=
  ∀ s s' : State, step s = .next s' →
    s'.params = s.params ∧ s'.wrapper.tsnBits = s.wrapper.tsnBits ∧ s'.wrapper.extBits = s.wrapper.extBits ∧
    s'.wrapper.outOfOrderWindow = s.wrapper.outOfOrderWindow ∧ (s.terminated = true → s'.terminated = true) ∧
    s.events <+: s'.events ∧ s.log <+: s'.log ∧ s.results <+: s'.results ∧
    s.wrapper.regs.maxExtSeqNum.toNat ≤ s'.wrapper.regs.maxExtSeqNum.toNat ∧
    (s.lastReceivedTSNValid = true →
      s'.lastReceivedTSNValid = true ∧ s.lastReceivedTSN.toNat ≤ s'.lastReceivedTSN.toNat)

/-- 47 R366: the state register changes only by the entries of the transition table, and each entry is one
instruction's. An INIT-ACK takes effect with the parameter that completes it (log 2); a timer fire closes only at the
retry ceiling (60 R421, R422). -/
def Obligations.TransitionRelation : Prop :=
  ∀ (i : Instr) (s s' : State), exec i s = .next s' → s'.state ≠ s.state →
    (i = .associate ∧ s.state = .closed ∧ s'.state = .cookieWait) ∨
    (∃ c, i = .cookieEcho c ∧ s.state = .closed ∧ s'.state = .established) ∨
    (∃ p rx pc f r ck rd next, i.paramOperands s.params.codes = some p ∧
      s.ingress = some ⟨rx, pc, some ⟨.initAck f r ck, rd, next⟩⟩ ∧ s'.ingress = some ⟨rx, next, none⟩ ∧
      s.state = .cookieWait ∧ s'.state = .cookieEchoed) ∨
    (∃ c, i = .cookieAck c ∧ s.state = .cookieEchoed ∧ s'.state = .established) ∨
    (i = .timerFireInit ∧ s.params.maxInitRetransmits ≤ s.initRetransmissions ∧ s.state = .cookieWait ∧
      s'.state = .closed) ∨
    (i = .timerFireCookie ∧ s.params.maxInitRetransmits ≤ s.initRetransmissions ∧ s.state = .cookieEchoed ∧
      s'.state = .closed) ∨
    (i = .abort ∧ s'.state = .closed ∧ s'.terminated = true)
end

