-- ==== Sys2Proof/Laws/Bytes.lean ====
section
/-! SUPPORT. Byte order and padding: the big-endian images read back, and the facts about `pad4` and `padlen` that
proofs cite. -/

namespace Sys2Proof

theorem ofBe2_extract (v : U16) : ofBe2 (v.extractLsb' 8 8) (v.extractLsb' 0 8) = v := by
  apply BitVec.eq_of_getLsbD_eq
  intro i hi
  simp only [ofBe2, BitVec.getLsbD_append, BitVec.getLsbD_extractLsb']
  split
  · simp_all
  · have : i - 8 < 8 := by omega
    have h : 8 + (i - 8) = i := by omega
    simp [this, h]

theorem ofBe4_extract (v : U32) :
    ofBe4 (v.extractLsb' 24 8) (v.extractLsb' 16 8) (v.extractLsb' 8 8) (v.extractLsb' 0 8) = v := by
  apply BitVec.eq_of_getLsbD_eq
  intro i hi
  simp only [ofBe4, BitVec.getLsbD_append, BitVec.getLsbD_extractLsb']
  split
  · simp_all
  · split
    · have h : 8 + (i - 8) = i := by omega
      simp_all
    · split
      · have h : 16 + (i - 8 - 8) = i := by omega
        simp_all
      · have : i - 8 - 8 - 8 < 8 := by omega
        have h : 24 + (i - 8 - 8 - 8) = i := by omega
        simp [this, h]

theorem be2_ofBe2 (a b : Byte) : be2 (ofBe2 a b) = [a, b] := by
  have h : ∀ (x y : Byte), (x = a ∧ y = b) → [x, y] = [a, b] := by rintro _ _ ⟨rfl, rfl⟩; rfl
  apply h
  refine ⟨?_, ?_⟩ <;>
  · apply BitVec.eq_of_getLsbD_eq
    intro i hi
    simp only [ofBe2, BitVec.getLsbD_append, BitVec.getLsbD_extractLsb']
    simp_all

theorem be4_ofBe4 (a b c d : Byte) : be4 (ofBe4 a b c d) = [a, b, c, d] := by
  have h : ∀ (x y z w : Byte), (x = a ∧ y = b ∧ z = c ∧ w = d) → [x, y, z, w] = [a, b, c, d] := by
    rintro _ _ _ _ ⟨rfl, rfl, rfl, rfl⟩; rfl
  apply h
  refine ⟨?_, ?_, ?_, ?_⟩ <;>
  · apply BitVec.eq_of_getLsbD_eq
    intro i hi
    simp only [ofBe4, BitVec.getLsbD_append, BitVec.getLsbD_extractLsb', hi, decide_true, Bool.true_and]
    repeat rw [if_neg (by omega)]
    try rw [if_pos (by omega)]
    congr 1
    omega

@[simp] theorem be2_length (v : U16) : (be2 v).length = 2 := rfl
@[simp] theorem be4_length (v : U32) : (be4 v).length = 4 := rfl
@[simp] theorem le4_length (v : U32) : (le4 v).length = 4 := rfl
@[simp] theorem zeros_length (k : Nat) : (zeros k).length = k := by simp [zeros]

theorem be2_eq (v : U16) : be2 v = [v.extractLsb' 8 8, v.extractLsb' 0 8] := rfl
theorem be4_eq (v : U32) :
    be4 v = [v.extractLsb' 24 8, v.extractLsb' 16 8, v.extractLsb' 8 8, v.extractLsb' 0 8] := rfl

/-- The value of a u16 written as a length that fits. -/
theorem ofBe2_ofNat_toNat {n : Nat} (h : n ≤ 65535) :
    (ofBe2 ((BitVec.ofNat 16 n).extractLsb' 8 8) ((BitVec.ofNat 16 n).extractLsb' 0 8)).toNat = n := by
  rw [ofBe2_extract]; simp; omega

/-- R14: the least multiple of 4 that is at least `n`. -/
theorem pad4_spec (n : Nat) : n ≤ pad4 n ∧ pad4 n ≤ n + 3 ∧ pad4 n % 4 = 0 := by unfold pad4 Config.ALIGN; omega

theorem padlen_spec (n : Nat) : padlen n ≤ 3 ∧ n + padlen n = pad4 n := by
  have := pad4_spec n; unfold padlen; omega

theorem pad4_add_of_mod {a : Nat} (h : a % 4 = 0) (n : Nat) : pad4 (a + n) = a + pad4 n := by unfold pad4 Config.ALIGN; omega

theorem padlen_add_of_mod {a : Nat} (h : a % 4 = 0) (n : Nat) : padlen (a + n) = padlen n := by
  unfold padlen pad4 Config.ALIGN; omega

end Sys2Proof
end

