-- ==== Sys2Proof/Laws/Codec.lean ====
section
/-! SUPPORT. The sizes of what the serialisers write (42 R185, 44 R256). -/

namespace Sys2Proof

/-- A TLV is padded to a multiple of 4 (42 R185). -/
theorem tlv_length (p : U16 × List Byte) : (tlv p).length = pad4 (4 + p.2.length) := by
  have := padlen_spec p.2.length; have := padlen_spec (4 + p.2.length); have := padlen_add_of_mod (a := 4) rfl p.2.length
  simp [tlv]; omega

theorem padded_length (x : List Byte) : (padded x).length + 4 = pad4 (4 + x.length) := by
  have := padlen_spec (4 + x.length); simp [padded]; omega

theorem tlvs_mod (ps : List (U16 × List Byte)) : (tlvs ps).length % 4 = 0 := by
  induction ps with
  | nil => rfl
  | cons p ps ih => 
    have := tlv_length p; have := pad4_spec (4 + p.2.length)
    simp only [tlvs, List.flatMap_cons, List.length_append] at ih ⊢; omega

theorem lastPad_le (ps : List (U16 × List Byte)) :
    lastPad ps ≤ 3 ∧ lastPad ps ≤ (tlvs ps).length := by
  unfold lastPad
  cases h : ps.getLast? with
  | none => simp
  | some p =>
    have := padlen_spec p.2.length
    refine ⟨this.1, ?_⟩
    have hm : p ∈ ps := List.mem_of_getLast? h
    have := tlv_length p; have := pad4_spec (4 + p.2.length)
    have hle : (tlv p).length ≤ (tlvs ps).length := by
      obtain ⟨a, b, rfl⟩ := List.append_of_mem hm
      simp [tlvs]; omega
    simp at *; omega

theorem initBody_facts (r : InitRec) (ps) : (initBodyImage r ps).length = 16 + (tlvs ps).length := by
  simp [initBodyImage, initFixedImage]; omega

/-- GetSize is the length rounded up to a multiple of 4 (44 R256). -/
theorem size_law (k : Codes) (c : Chunk) :
    c.length k ≤ c.size k ∧ c.size k - c.length k ≤ 3 ∧ c.size k % 4 = 0 ∧ 4 ≤ c.length k := by
  have := pad4_spec (c.length k)
  refine ⟨this.1, by unfold Chunk.size; omega, this.2.2, ?_⟩
  cases c <;> simp only [Chunk.length] <;> try omega
  case init f r l => have := initBody_facts r (paramList k r l none); have := lastPad_le (paramList k r l none); omega
  case initAck f r l => have := initBody_facts r (paramList k r none l); have := lastPad_le (paramList k r none l); omega

theorem afterHeader_length (k : Codes) (c : Chunk) : 4 + (c.afterHeader k).length = c.size k := by
  have hp := fun x => padded_length x
  cases c <;> simp only [Chunk.afterHeader, Chunk.size, Chunk.length]
  case init f r l =>
    have h1 := initBody_facts r (paramList k r l none)
    have h2 := lastPad_le (paramList k r l none)
    have h3 := tlvs_mod (paramList k r l none)
    have h4 := pad4_spec (4 + (initBodyImage r (paramList k r l none)).length - lastPad (paramList k r l none))
    omega
  case initAck f r l =>
    have h1 := initBody_facts r (paramList k r none l)
    have h2 := lastPad_le (paramList k r none l)
    have h3 := tlvs_mod (paramList k r none l)
    have h4 := pad4_spec (4 + (initBodyImage r (paramList k r none l)).length - lastPad (paramList k r none l))
    omega
  case data f r =>
    have := hp (be4 r.tsn ++ (be2 r.streamId ++ (be2 r.streamSeq ++ (be4 r.ppid ++ r.payload))))
    rw [show 16 + r.payload.length = 4 +
      (be4 r.tsn ++ (be2 r.streamId ++ (be2 r.streamSeq ++ (be4 r.ppid ++ r.payload)))).length by simp; omega]
    omega
  case sack f r =>
    have hg : (r.gapBlocks.flatMap (fun g => be2 g.1 ++ be2 g.2)).length = 4 * r.gapBlocks.length := by
      induction r.gapBlocks with
      | nil => rfl
      | cons g gs ih => simp [List.flatMap_cons] at ih ⊢; omega
    have hd : (r.dupTSNs.flatMap be4).length = 4 * r.dupTSNs.length := by
      induction r.dupTSNs with
      | nil => rfl
      | cons g gs ih => simp [List.flatMap_cons] at ih ⊢; omega
    simp only [List.length_append, be4_length, be2_length, hg, hd]
    unfold pad4 Config.ALIGN; omega
  case heartbeat f info =>
    have := hp (be2 (k.paramType .heartbeatInfo) ++ (be2 (BitVec.ofNat 16 (4 + info.length)) ++ info))
    rw [show 8 + info.length = 4 +
      (be2 (k.paramType .heartbeatInfo) ++ (be2 (BitVec.ofNat 16 (4 + info.length)) ++ info)).length by simp; omega]
    omega
  case heartbeatAck f info =>
    have := hp (be2 (k.paramType .heartbeatInfo) ++ (be2 (BitVec.ofNat 16 (4 + info.length)) ++ info))
    rw [show 8 + info.length = 4 +
      (be2 (k.paramType .heartbeatInfo) ++ (be2 (BitVec.ofNat 16 (4 + info.length)) ++ info)).length by simp; omega]
    omega
  all_goals first | rfl | (rw [← hp]; omega)

/-- Every serialiser writes GetSize bytes. -/
theorem image_length (k : Codes) (c : Chunk) : (c.image k).length = c.size k := by
  have := afterHeader_length k c
  simp [Chunk.image]; omega

theorem wf_length {k : Codes} {c : Chunk} (h : c.wf k = true) : c.length k ≤ 65535 := by
  cases c <;> simp only [Chunk.wf, Bool.and_eq_true, decide_eq_true_eq, Config.SACK_MAX_ENTRIES] at h <;>
    simp only [Chunk.length] at h ⊢ <;> omega

end Sys2Proof
end

