-- ==== Sys2Proof/Laws/Memory.lean ====
section
/-! SUPPORT. The laws of the byte spaces: every memory operation keeps the canonical form, a read after a write, and
what lies outside a write is unchanged. -/

namespace Sys2Proof

namespace Memory

theorem wfFrom_cons {lo k : Nat} {b : Byte} {m : Memory} :
    wfFrom lo ((k, b) :: m) = true ↔ lo ≤ k ∧ b ≠ 0 ∧ wfFrom (k + 1) m = true := by
  simp [wfFrom, and_assoc]

theorem wfFrom_mono {lo lo' : Nat} (h : lo ≤ lo') : ∀ {m : Memory}, wfFrom lo' m = true → wfFrom lo m = true
  | [], _ => rfl
  | (_, _) :: _, hm => by rw [wfFrom_cons] at hm ⊢; exact ⟨by omega, hm.2⟩

/-- Nothing is listed below the start of a canonical list. -/
theorem read_of_lt : ∀ {m : Memory} {lo a : Nat}, wfFrom lo m = true → a < lo → m.read a = 0
  | [], _, _, _, _ => rfl
  | (k, b) :: m, lo, a, hm, ha => by
    rw [wfFrom_cons] at hm
    rw [read, if_neg (by omega)]
    exact read_of_lt hm.2.2 (by omega)

theorem write_wfFrom : ∀ {m : Memory} {lo a : Nat} (b : Byte), wfFrom lo m = true → lo ≤ a →
    wfFrom lo (m.write a b) = true
  | [], lo, a, b, _, ha => by
    unfold write
    split
    · rfl
    · rw [wfFrom_cons]; exact ⟨ha, ‹_›, rfl⟩
  | (k, c) :: m, lo, a, b, hm, ha => by
    have hm' := wfFrom_cons.1 hm
    unfold write
    split
    · split
      · exact hm
      · rw [wfFrom_cons, wfFrom_cons]; exact ⟨ha, ‹_›, by omega, hm'.2.1, hm'.2.2⟩
    · split
      · split
        · exact wfFrom_mono (by omega) hm'.2.2
        · subst_vars; rw [wfFrom_cons]; exact ⟨ha, ‹_›, hm'.2.2⟩
      · rw [wfFrom_cons]; exact ⟨hm'.1, hm'.2.1, write_wfFrom b hm'.2.2 (by omega)⟩

/-- A write keeps the canonical form. -/
theorem write_wf {m : Memory} (h : m.wf = true) (a : Nat) (b : Byte) : (m.write a b).wf = true :=
  write_wfFrom b h (Nat.zero_le a)

theorem read_writeFrom : ∀ {m : Memory} {lo : Nat} (a : Nat) (b : Byte) (x : Nat), wfFrom lo m = true →
    (m.write a b).read x = if x = a then b else m.read x
  | [], _, a, b, x, _ => by
    unfold write
    split <;> by_cases hx : x = a <;> simp_all [read]
  | (k, c) :: m, lo, a, b, x, hm => by
    have hm' := wfFrom_cons.1 hm
    unfold write
    split
    · by_cases hb : b = 0
      · rw [if_pos hb]
        split
        · subst_vars
          rw [read, if_neg (by omega)]
          exact read_of_lt hm'.2.2 (by omega)
        · rfl
      · rw [if_neg hb, read]
    · split
      · subst_vars
        by_cases hb : b = 0
        · rw [if_pos hb]
          split
          · subst_vars; exact read_of_lt hm'.2.2 (by omega)
          · rw [read, if_neg ‹_›]
        · rw [if_neg hb, read, read]; split <;> rfl
      · rw [read, read, read_writeFrom a b x hm'.2.2]
        split
        · rw [if_neg (by omega)]
        · rfl

/-- A read after a write. -/
theorem read_write {m : Memory} (h : m.wf = true) (a : Nat) (b : Byte) (x : Nat) :
    (m.write a b).read x = if x = a then b else m.read x := read_writeFrom a b x h

theorem writeBytes_wf : ∀ (bs : List Byte) {m : Memory} (a : Nat), m.wf = true → (m.writeBytes a bs).wf = true
  | [], _, _, h => h
  | b :: bs, _, a, h => writeBytes_wf bs (a + 1) (write_wf h a b)

theorem read_writeBytes : ∀ (bs : List Byte) {m : Memory} (a x : Nat), m.wf = true →
    (m.writeBytes a bs).read x = if h : a ≤ x ∧ x - a < bs.length then bs[x - a] else m.read x
  | [], m, a, x, _ => by simp [writeBytes]
  | b :: bs, m, a, x, h => by
    rw [writeBytes, read_writeBytes bs (a + 1) x (write_wf h a b), read_write h]
    by_cases hx : x = a
    · subst hx
      simp
    · by_cases hlt : a + 1 ≤ x ∧ x - (a + 1) < bs.length
      · have h1 : a ≤ x ∧ x - a < (b :: bs).length := by simp; omega
        have h2 : x - a = (x - (a + 1)) + 1 := by omega
        rw [dif_pos hlt, dif_pos h1]
        simp [h2]
      · have h1 : ¬ (a ≤ x ∧ x - a < (b :: bs).length) := by simp; omega
        rw [dif_neg hlt, dif_neg h1, if_neg hx]

@[simp] theorem readBytes_length (m : Memory) : ∀ (n a : Nat), (m.readBytes a n).length = n
  | 0, _ => rfl
  | n + 1, a => by simp [readBytes, readBytes_length m n]

theorem getElem_readBytes (m : Memory) : ∀ (n a i : Nat) (h : i < (m.readBytes a n).length),
    (m.readBytes a n)[i] = m.read (a + i)
  | 0, _, _, h => by simp at h
  | n + 1, a, 0, _ => rfl
  | n + 1, a, i + 1, h => by
    simp only [readBytes, List.getElem_cons_succ]
    rw [getElem_readBytes m n (a + 1) i]
    congr 1; omega

/-- A stretch of memory is determined by its bytes. -/
theorem readBytes_eq (m : Memory) (a : Nat) (bs : List Byte) (h : ∀ i (hi : i < bs.length), m.read (a + i) = bs[i]) :
    m.readBytes a bs.length = bs := by
  apply List.ext_getElem (by simp)
  intro i h1 h2
  rw [getElem_readBytes, h i h2]

theorem readBytes_congr (m m' : Memory) (a n : Nat) (h : ∀ i, i < n → m.read (a + i) = m'.read (a + i)) :
    m.readBytes a n = m'.readBytes a n := by
  apply List.ext_getElem (by simp)
  intro i h1 h2
  rw [getElem_readBytes, getElem_readBytes, h i (by simpa using h1)]

/-- The bytes written are read back. -/
theorem readBytes_writeBytes {m : Memory} (h : m.wf = true) (a : Nat) (bs : List Byte) :
    (m.writeBytes a bs).readBytes a bs.length = bs := by
  apply readBytes_eq
  intro i hi
  rw [read_writeBytes bs a (a + i) h, dif_pos ⟨by omega, by omega⟩]
  simp

theorem readBytes_append (m : Memory) (a j k : Nat) :
    m.readBytes a (j + k) = m.readBytes a j ++ m.readBytes (a + j) k := by
  apply List.ext_getElem (by simp)
  intro i h1 h2
  rw [getElem_readBytes, List.getElem_append]
  split
  · rw [getElem_readBytes]
  · rw [getElem_readBytes]; congr 1; simp at *; omega

theorem ofBytes_wfFrom : ∀ (bs : List Byte) (a : Nat), wfFrom a (ofBytes a bs) = true
  | [], _ => rfl
  | b :: bs, a => by
    unfold ofBytes
    split
    · exact wfFrom_mono (by omega) (ofBytes_wfFrom bs (a + 1))
    · rw [wfFrom_cons]; exact ⟨by omega, ‹_›, ofBytes_wfFrom bs (a + 1)⟩

/-- A buffer laid out as cells is canonical. -/
theorem ofBytes_wf (bs : List Byte) (a : Nat) : (ofBytes a bs).wf = true :=
  wfFrom_mono (Nat.zero_le a) (ofBytes_wfFrom bs a)

theorem read_ofBytes : ∀ (bs : List Byte) (a x : Nat),
    (ofBytes a bs).read x = if h : a ≤ x ∧ x - a < bs.length then bs[x - a] else 0
  | [], a, x => by simp [ofBytes, read]
  | b :: bs, a, x => by
    have ih := read_ofBytes bs (a + 1) x
    have hrest : x ≠ a → (ofBytes (a + 1) bs).read x =
        if h : a ≤ x ∧ x - a < (b :: bs).length then (b :: bs)[x - a] else 0 := by
      intro hx
      rw [ih]
      by_cases hlt : a + 1 ≤ x ∧ x - (a + 1) < bs.length
      · have h1 : a ≤ x ∧ x - a < (b :: bs).length := by simp; omega
        have h2 : x - a = (x - (a + 1)) + 1 := by omega
        rw [dif_pos hlt, dif_pos h1]
        simp [h2]
      · have h1 : ¬ (a ≤ x ∧ x - a < (b :: bs).length) := by simp; omega
        rw [dif_neg hlt, dif_neg h1]
    by_cases hx : x = a
    · subst hx
      unfold ofBytes
      by_cases hb : b = 0
      · rw [if_pos hb, read_of_lt (ofBytes_wfFrom bs (x + 1)) (by omega)]
        simp [hb]
      · rw [if_neg hb, read]; simp
    · unfold ofBytes
      split
      · exact hrest hx
      · rw [read, if_neg hx]; exact hrest hx

/-- A buffer is read back as it was lent. -/
theorem readBytes_ofBytes (bs : List Byte) (k n : Nat) (h : k + n ≤ bs.length) :
    (ofBytes 0 bs).readBytes k n = (bs.drop k).take n := by
  apply List.ext_getElem (by simp; omega)
  intro i h1 h2
  have hi : i < n := by simpa using h1
  rw [getElem_readBytes, read_ofBytes, dif_pos ⟨by omega, by omega⟩]
  simp

theorem write_bound : ∀ {m : Memory} {n a : Nat} (b : Byte), m.all (fun c => decide (c.1 < n)) = true → a < n →
    (m.write a b).all (fun c => decide (c.1 < n)) = true
  | [], n, a, b, _, ha => by unfold write; split <;> simp [ha]
  | (k, c) :: m, n, a, b, hm, ha => by
    have hm' := hm
    rw [List.all_cons, Bool.and_eq_true] at hm'
    unfold write
    split
    · split
      · exact hm
      · rw [List.all_cons, hm]; simpa using ha
    · split
      · split
        · exact hm'.2
        · rw [List.all_cons, hm'.2]; simpa using ha
      · rw [List.all_cons, hm'.1, write_bound b hm'.2 ha]; rfl

theorem writeBytes_bound : ∀ (bs : List Byte) {m : Memory} {n a : Nat},
    m.all (fun c => decide (c.1 < n)) = true → a + bs.length ≤ n →
    (m.writeBytes a bs).all (fun c => decide (c.1 < n)) = true
  | [], _, _, _, h, _ => h
  | b :: bs, m, n, a, h, ha => by
    simp only [List.length_cons] at ha
    exact writeBytes_bound bs (write_bound b h (by omega)) (by omega)

theorem ofBytes_bound : ∀ (bs : List Byte) (a : Nat),
    (ofBytes a bs).all (fun c => decide (c.1 < a + bs.length)) = true
  | [], _ => rfl
  | b :: bs, a => by
    have ih := ofBytes_bound bs (a + 1)
    have h : a + 1 + bs.length = a + (b :: bs).length := by simp; omega
    rw [h] at ih
    unfold ofBytes
    split
    · exact ih
    · rw [List.all_cons, ih]; simp

end Memory

namespace Space

theorem wf_mem {sp : Space} (h : sp.wf = true) : sp.mem.wf = true := by
  simp only [wf, Bool.and_eq_true] at h; exact h.1

@[simp] theorem ofBytes_size (bs : List Byte) : (ofBytes bs).size = bs.length := rfl

/-- A lent buffer is a canonical space. -/
theorem ofBytes_wf (bs : List Byte) : (ofBytes bs).wf = true := by
  have h := Memory.ofBytes_bound bs 0
  rw [Nat.zero_add] at h
  simp only [wf, ofBytes, Bool.and_eq_true]
  exact ⟨Memory.ofBytes_wf bs 0, h⟩

/-- The whole effect of a write to a space. -/
theorem writeBytes_spec {sp sp' : Space} {a : Nat} {bs : List Byte} (hw : sp.wf = true)
    (h : sp.writeBytes a bs = some sp') :
    a + bs.length ≤ sp.size ∧ sp'.wf = true ∧ sp'.size = sp.size ∧ sp'.mem = sp.mem.writeBytes a bs := by
  unfold writeBytes at h
  split at h
  · cases h
    refine ⟨‹_›, ?_, rfl, rfl⟩
    simp only [wf, Bool.and_eq_true] at hw ⊢
    exact ⟨Memory.writeBytes_wf bs a hw.1, Memory.writeBytes_bound bs hw.2 ‹_›⟩
  · cases h

theorem writeBytes_some {sp : Space} {a : Nat} {bs : List Byte} (h : a + bs.length ≤ sp.size) :
    sp.writeBytes a bs = some { sp with mem := sp.mem.writeBytes a bs } := by simp [writeBytes, h]

theorem readBytes_some {sp : Space} {a n : Nat} (h : a + n ≤ sp.size) :
    sp.readBytes a n = some (sp.mem.readBytes a n) := by simp [readBytes, h]

/-- Reading a lent buffer. -/
theorem readBytes_ofBytes {bs : List Byte} {k n : Nat} (h : k + n ≤ bs.length) :
    (ofBytes bs).readBytes k n = some ((bs.drop k).take n) := by
  rw [readBytes_some (by simpa using h)]
  simp only [ofBytes]
  rw [Memory.readBytes_ofBytes bs k n h]

end Space

/-- Reset's TX space is canonical, and no RX space is there. -/
theorem reset_spaces : Machine.State.reset.tx.wf = true ∧ Machine.State.reset.ingress = none := ⟨by decide, rfl⟩

end Sys2Proof
end

