-- ==== Sys2Proof/Laws/Packet.lean ====
section
/-! SUPPORT. What writing a packet does (40_buffer_codec.md R139, 46_association_commands.md R325, R326): a put inside
the window, a record serialised, the header, the chunk fill whatever the queue holds. -/

namespace Sys2Proof.Machine

theorem writeBytes_append (xs ys : List Byte) : ∀ (m : Memory) (a : Nat),
    m.writeBytes a (xs ++ ys) = (m.writeBytes a xs).writeBytes (a + xs.length) ys := by
  induction xs with
  | nil => intro m a; simp [Memory.writeBytes]
  | cons x xs ih =>
    intro m a
    simp only [List.cons_append, Memory.writeBytes, ih, List.length_cons]
    congr 1
    omega

/-- Bytes that a write does not touch read as before. -/
theorem readBytes_writeBytes_of_disjoint {m : Memory} (h : m.wf = true) (a n b : Nat) (bs : List Byte)
    (hd : a + n ≤ b ∨ b + bs.length ≤ a) : (m.writeBytes b bs).readBytes a n = m.readBytes a n := by
  apply Memory.readBytes_congr
  intro i hi
  rw [Memory.read_writeBytes bs _ _ h, dif_neg (by omega)]

/-- `wr'` is `wr` with `bs` put at its cursor. -/
structure Put (bs : List Byte) (wr wr' : Writer) : Prop where
  w : wr'.w = wr.w + bs.length
  base : wr'.base = wr.base
  cap : wr'.cap = wr.cap
  ok : WriterOk wr'
  size : wr'.space.size = wr.space.size
  mem : wr'.space.mem = wr.space.mem.writeBytes (wr.base + wr.w) bs

theorem putBytes_ok {wr : Writer} (h : WriterOk wr) {bs : List Byte} (hr : bs.length ≤ wr.room) :
    ∃ wr', wr.putBytes bs = some wr' ∧ Put bs wr wr' := by
  obtain ⟨h1, h2, h3⟩ := h
  have hr' : bs.length ≤ wr.cap - wr.w := hr
  have hle : wr.base + wr.w + bs.length ≤ wr.space.size := by omega
  have hs := Space.writeBytes_some (sp := wr.space) hle
  obtain ⟨_, g1, g2, g3⟩ := Space.writeBytes_spec h1 hs
  refine ⟨⟨⟨wr.space.size, wr.space.mem.writeBytes (wr.base + wr.w) bs⟩, wr.base, wr.cap, wr.w + bs.length⟩, ?_,
    rfl, rfl, rfl, ⟨g1, ?_, ?_⟩, g2, g3⟩
  · simp only [Writer.putBytes, if_pos hr, hs, Option.map_some]
  · simpa using h2
  · simp only; omega

/-- The bytes just put read back, the others as before. -/
theorem Put.read {bs : List Byte} {wr wr' : Writer} (h : WriterOk wr) (hr : bs.length ≤ wr.room) (p : Put bs wr wr') :
    wr'.space.readBytes (wr.base + wr.w) bs.length = some bs ∧
    ∀ x, (x < wr.base + wr.w ∨ wr.base + wr.w + bs.length ≤ x) → wr'.space.byteAt x = wr.space.byteAt x := by
  have hr' : bs.length ≤ wr.cap - wr.w := hr
  have := h.2.1
  have := h.2.2
  refine ⟨?_, fun x hx => ?_⟩
  · rw [Space.readBytes_some (by rw [p.size]; omega), p.mem, Memory.readBytes_writeBytes (Space.wf_mem h.1)]
  · simp only [Space.byteAt, p.mem, Memory.read_writeBytes bs _ x (Space.wf_mem h.1)]
    rw [dif_neg (by omega)]

theorem serialize_ok {k : Codes} {c : Chunk} {wr : Writer} (h : WriterOk wr) (hw : c.wf k = true)
    (hr : c.size k ≤ wr.room) : ∃ wr', serialize k c wr = some (wr', c.size k) ∧ Put (c.image k) wr wr' := by
  have hl := image_length k c
  obtain ⟨wr', h1, h2⟩ := putBytes_ok h (bs := c.image k) (by omega)
  refine ⟨wr', ?_, h2⟩
  have : ¬ (c.wf k = false ∨ wr.room < c.size k) := by simp [hw]; omega
  simp only [serialize, if_neg this, h1, Option.map_some]

/-- The 12 bytes of a header (45 R290). -/
def headerImage (h : PacketHeader) : List Byte :=
  be2 h.sourcePort ++ (be2 h.destinationPort ++ (be4 h.verificationTag ++ le4 h.checksum))

theorem serializeHeader_ok (h : PacketHeader) {sp : Space} (hw : sp.wf = true) (hs : 12 ≤ sp.size) :
    ∃ wr, serializeHeader h (Writer.ofSpace sp) = some wr ∧ Put (headerImage h) (Writer.ofSpace sp) wr := by
  have h0 : WriterOk (Writer.ofSpace sp) := ⟨hw, by simp [Writer.ofSpace], by simp [Writer.ofSpace]⟩
  have r0 : (Writer.ofSpace sp).cap - (Writer.ofSpace sp).w = sp.size := rfl
  obtain ⟨w1, a, pa⟩ := putBytes_ok h0 (bs := be2 h.sourcePort) (by simp only [be2_length, Writer.room]; omega)
  have l1 := pa.w
  have c1 := pa.cap
  obtain ⟨w2, b, pb⟩ := putBytes_ok pa.ok (bs := be2 h.destinationPort)
    (by simp only [be2_length, Writer.room] at *; omega)
  have l2 := pb.w
  have c2 := pb.cap
  obtain ⟨w3, c, pc⟩ := putBytes_ok pb.ok (bs := be4 h.verificationTag)
    (by simp only [be2_length, be4_length, Writer.room] at *; omega)
  have l3 := pc.w
  have c3 := pc.cap
  obtain ⟨w4, d, pd⟩ := putBytes_ok pc.ok (bs := le4 h.checksum)
    (by simp only [be2_length, be4_length, le4_length, Writer.room] at *; omega)
  have l4 := pd.w
  refine ⟨w4, ?_, ?_, ?_, ?_, pd.ok, ?_, ?_⟩
  · simp only [serializeHeader, Writer.put2, Writer.put4, a, b, c, d, Option.bind_eq_bind, Option.bind_some]
  · simp only [headerImage, List.length_append, be2_length, be4_length, le4_length] at *; omega
  · rw [pd.base, pc.base, pb.base, pa.base]
  · rw [pd.cap, c3, c2, c1]
  · rw [pd.size, pc.size, pb.size, pa.size]
  · rw [headerImage, writeBytes_append, writeBytes_append, writeBytes_append, pd.mem, pc.mem, pb.mem, pa.mem]
    rw [pc.base, pb.base, pa.base, l3, l2, l1]
    simp only [Nat.add_assoc]

/-- `wr'` is `wr` after some chunks were written behind its cursor. -/
structure Filled (wr wr' : Writer) : Prop where
  ok : WriterOk wr'
  base : wr'.base = wr.base
  le : wr.w ≤ wr'.w
  cap : wr'.cap = wr.cap
  size : wr'.space.size = wr.space.size
  before : ∀ x, x < wr.base + wr.w → wr'.space.mem.read x = wr.space.mem.read x

theorem Filled.refl {wr : Writer} (h : WriterOk wr) : Filled wr wr :=
  ⟨h, rfl, Nat.le_refl _, rfl, rfl, fun _ _ => rfl⟩

/-- The chunk fill never overruns, whatever records the queue holds: it takes a prefix of the queue and writes behind
the cursor only. -/
theorem fillPacket_ok (k : Codes) : ∀ (q : List Chunk) (count : Nat) (wr : Writer), WriterOk wr →
    ∃ rest wr', fillPacket k q count wr = .ok (rest, wr') ∧ rest <:+ q ∧ Filled wr wr' := by
  intro q
  induction q with
  | nil => exact fun _ wr h => ⟨[], wr, rfl, List.suffix_refl _, .refl h⟩
  | cons c q ih =>
    intro count wr h
    unfold fillPacket
    split
    · exact ⟨_, wr, rfl, List.suffix_refl _, .refl h⟩
    split
    · exact ⟨_, wr, rfl, List.suffix_refl _, .refl h⟩
    rename_i h2
    have hroom : wr.room = wr.cap - wr.w := rfl
    have hle := h.2.2
    obtain ⟨w1, n, k1, k2⟩ : ∃ w1 n, serialize k c wr = some (w1, n) ∧ Filled wr { w1 with w := wr.w + c.size k } := by
      by_cases hw : c.wf k = true
      · obtain ⟨w1, g, p⟩ := serialize_ok h hw (by omega)
        have e : ({ w1 with w := wr.w + c.size k } : Writer) = w1 := by rw [← image_length k c, ← p.w]
        refine ⟨w1, _, g, ?_⟩
        rw [e]
        exact ⟨p.ok, p.base, by rw [p.w]; omega, p.cap, p.size, fun x hx => by
          rw [p.mem, Memory.read_writeBytes _ _ _ (Space.wf_mem h.1), dif_neg (by omega)]⟩
      · refine ⟨wr, 0, by simp only [serialize]; rw [if_pos (.inl (by simpa using hw))], ?_⟩
        exact ⟨⟨h.1, h.2.1, by simp only; omega⟩, rfl, by simp, rfl, rfl, fun _ _ => rfl⟩
    rw [k1]
    dsimp only
    split
    · exact ⟨q, _, rfl, List.suffix_cons c q, k2⟩
    · obtain ⟨rest, w2, i1, i2, i3⟩ := ih (count + 1) _ k2.ok
      refine ⟨rest, w2, i1, i2.trans (List.suffix_cons c q), i3.ok, i3.base.trans k2.base, ?_, i3.cap.trans k2.cap,
        i3.size.trans k2.size, fun x hx => ?_⟩
      · have := k2.le
        have := i3.le
        omega
      · have hb := k2.base
        have hl := k2.le
        rw [i3.before x (by omega), k2.before x hx]

/-- ReadPacket never overruns (40 R141): in a space with room for the header, the packet is built. -/
theorem buildPacket_ok (s : State) {sp : Space} (hw : sp.wf = true) (hs : 12 ≤ sp.size) :
    ∃ rest wr, buildPacket s sp = .ok (rest, wr) ∧ rest <:+ s.queue ∧ wr.space.wf = true ∧ wr.space.size = sp.size ∧
      12 ≤ wr.w ∧ wr.w ≤ sp.size := by
  obtain ⟨w1, a1, p⟩ := serializeHeader_ok ⟨s.localPort, s.remotePort, s.remoteVerificationTag, 0⟩ hw hs
  obtain ⟨rest, w2, b1, b2, f⟩ := fillPacket_ok s.params.codes s.queue 0 w1 p.ok
  have hw1 : w1.w = 12 := p.w
  have hbase : w2.base = 0 := f.base.trans p.base
  have hcap : w2.cap = sp.size := f.cap.trans p.cap
  have hsize : w2.space.size = sp.size := f.size.trans p.size
  have hle := f.le
  have hwc := f.ok.2.2
  have hz := Space.readBytes_some (sp := w2.space) (a := 0) (n := w2.w) (by omega)
  have hp := Space.writeBytes_some (sp := w2.space) (a := 0 + 8) (bs := le4 (crc32c (w2.space.mem.readBytes 0 w2.w)))
    (by rw [le4_length]; omega)
  refine ⟨rest, { w2 with space := ⟨w2.space.size, w2.space.mem.writeBytes (0 + 8)
    (le4 (crc32c (w2.space.mem.readBytes 0 w2.w)))⟩ }, ?_, b2, ?_⟩
  · simp only [buildPacket, a1, b1, patchChecksum, hz, Option.bind_eq_bind, Option.bind_some, Writer.patch4le]
    rw [if_pos (by omega), hbase, hp]
    rfl
  · obtain ⟨_, g1, g2, _⟩ := Space.writeBytes_spec f.ok.1 hp
    exact ⟨g1, g2.trans hsize, by simp only; omega, by simp only; omega⟩

end Sys2Proof.Machine
end

