-- ==== Sys2Proof/Laws/Decode.lean ====
section
/-! SUPPORT. What the decoder's selection gives (30_encoding.md R101, R104): one lemma for each side. -/

namespace Sys2Proof

/-- Looking a type byte up gives a kind with that code. -/
theorem chunkType_of_kindOf {k : Codes} {t : Byte} {x : ChunkKind} (h : k.chunkKindOf t = some x) :
    k.chunkType x = t := by
  simpa using List.find?_some h

theorem paramType_of_kindOf {k : Codes} {t : U16} {x : ParamKind} (h : k.paramKindOf t = some x) :
    k.paramType x = t := by
  simpa using List.find?_some h

theorem ChunkKind.mem_all (x : ChunkKind) : x ∈ ChunkKind.all := by cases x <;> decide

theorem ParamKind.mem_all (x : ParamKind) : x ∈ ParamKind.all := by cases x <;> decide

/-- No kind is found exactly for a type that is in no row. -/
theorem chunkKindOf_none {k : Codes} {t : Byte} : k.chunkKindOf t = none ↔ t ∉ k.chunkTypes := by
  simp [Codes.chunkKindOf, Codes.chunkTypes, List.find?_eq_none]

theorem paramKindOf_none {k : Codes} {t : U16} : k.paramKindOf t = none ↔ t ∉ k.paramTypes := by
  simp [Codes.paramKindOf, Codes.paramTypes, List.find?_eq_none]

/-- Distinct codes name their kinds. -/
theorem Codes.Distinct.chunkType_inj {k : Codes} (h : k.Distinct) {x y : ChunkKind}
    (e : k.chunkType x = k.chunkType y) : x = y :=
  List.inj_on_of_nodup_map h.1 x.mem_all y.mem_all e

theorem Codes.Distinct.paramType_inj {k : Codes} (h : k.Distinct) {x y : ParamKind}
    (e : k.paramType x = k.paramType y) : x = y :=
  List.inj_on_of_nodup_map h.2 x.mem_all y.mem_all e

theorem Codes.Distinct.chunkKindOf {k : Codes} (h : k.Distinct) (x : ChunkKind) :
    k.chunkKindOf (k.chunkType x) = some x := by
  cases e : k.chunkKindOf (k.chunkType x) with
  | none => exact absurd (List.mem_map_of_mem x.mem_all) (chunkKindOf_none.1 e)
  | some y => rw [h.chunkType_inj (chunkType_of_kindOf e)]

theorem Codes.Distinct.paramKindOf {k : Codes} (h : k.Distinct) (x : ParamKind) :
    k.paramKindOf (k.paramType x) = some x := by
  cases e : k.paramKindOf (k.paramType x) with
  | none => exact absurd (List.mem_map_of_mem x.mem_all) (paramKindOf_none.1 e)
  | some y => rw [h.paramType_inj (paramType_of_kindOf e)]

theorem Codes.default_distinct : Codes.default.Distinct := by unfold Codes.Distinct; decide

theorem selectChunk_default {k : Codes} {t : Byte} (c : RawChunk) (h : t ∉ k.chunkTypes) :
    selectChunk k t c = .unknown t c := by
  rw [selectChunk, chunkKindOf_none.2 h]

theorem selectParam_default {k : Codes} {t : U16} (c : RawParam) (h : t ∉ k.paramTypes) :
    selectParam k t c = .unrecognisedParameter t c := by
  rw [selectParam, paramKindOf_none.2 h]

/-- The selected chunk instruction carries the type and the operands it was selected by. -/
theorem selectChunk_operands (k : Codes) (t : Byte) (c : RawChunk) :
    (selectChunk k t c).chunkOperands k = some (t, c) := by
  cases h : k.chunkKindOf t with
  | none => simp [selectChunk, h, Instr.chunkOperands]
  | some x =>
    obtain rfl := chunkType_of_kindOf h
    cases x <;> simp [selectChunk, h, Instr.ofChunk, Instr.chunkOperands]

theorem selectParam_operands (k : Codes) (t : U16) (c : RawParam) :
    (selectParam k t c).paramOperands k = some (t, c) := by
  cases h : k.paramKindOf t with
  | none => simp [selectParam, h, Instr.paramOperands]
  | some x =>
    obtain rfl := paramType_of_kindOf h
    cases x <;> simp [selectParam, h, Instr.ofParam, Instr.paramOperands]

theorem selectChunk_unknown (k : Codes) (t : Byte) (c : RawChunk) :
    selectChunk k t c = .unknown t c ↔ t ∉ k.chunkTypes := by
  refine ⟨fun hs => chunkKindOf_none.1 ?_, selectChunk_default c⟩
  cases h : k.chunkKindOf t with
  | none => rfl
  | some x => cases x <;> simp [selectChunk, h, Instr.ofChunk] at hs

theorem selectParam_unknown (k : Codes) (t : U16) (c : RawParam) :
    selectParam k t c = .unrecognisedParameter t c ↔ t ∉ k.paramTypes := by
  refine ⟨fun hs => paramKindOf_none.1 ?_, selectParam_default c⟩
  cases h : k.paramKindOf t with
  | none => rfl
  | some x => cases x <;> simp [selectParam, h, Instr.ofParam] at hs

/-- A chunk's operands: usable exactly when the length is at least 4 and inside what is left. -/
theorem rawChunk_facts (f : Byte) (l : U16) (tail : List Byte) :
    (rawChunk f l tail).flag = f ∧ (rawChunk f l tail).length = l ∧
    ((rawChunk f l tail).wellFormed = true ↔ 4 ≤ l.toNat ∧ l.toNat ≤ 4 + tail.length) ∧
    ((rawChunk f l tail).wellFormed = true → (rawChunk f l tail).body = tail.take (l.toNat - 4)) := by
  unfold rawChunk
  split
  · rename_i h
    refine ⟨rfl, rfl, ?_, fun _ => rfl⟩
    simp [RawChunk.wellFormed, Config.CHUNK_HEADER_SIZE]; omega
  · rename_i h
    have : ¬ (l.toNat = 4) := by intro h'; apply h; omega
    refine ⟨rfl, rfl, ?_, ?_⟩
    · simp [RawChunk.wellFormed, Config.CHUNK_HEADER_SIZE, this]; omega
    · simp [RawChunk.wellFormed, Config.CHUNK_HEADER_SIZE, this]

/-- The same for a parameter. -/
theorem rawParam_facts (l : U16) (tail : List Byte) :
    (rawParam l tail).length = l ∧
    ((rawParam l tail).wellFormed = true ↔ 4 ≤ l.toNat ∧ l.toNat ≤ 4 + tail.length) ∧
    ((rawParam l tail).wellFormed = true → (rawParam l tail).value = tail.take (l.toNat - 4)) := by
  unfold rawParam
  split
  · rename_i h
    refine ⟨rfl, ?_, fun _ => rfl⟩
    simp [RawParam.wellFormed, Config.CHUNK_HEADER_SIZE]; omega
  · rename_i h
    have : ¬ (l.toNat = 4) := by intro h'; apply h; omega
    refine ⟨rfl, ?_, ?_⟩
    · simp [RawParam.wellFormed, Config.CHUNK_HEADER_SIZE, this]; omega
    · simp [RawParam.wellFormed, Config.CHUNK_HEADER_SIZE, this]

/-- The codes of R109. -/
def commandCodes : List Byte := [0x01, 0x02, 0x03, 0x04, 0x05, 0x06, 0x07, 0x08, 0x09, 0x10, 0x11, 0x12]

theorem commandCode_mem {i : Instr} {k : Byte} (h : i.commandCode = some k) : k ∈ commandCodes := by
  cases i <;> simp only [Instr.commandCode, Option.some.injEq, reduceCtorEq] at h <;> subst h <;> decide

theorem decodeCommand_default {c : PortCommand} (h : c.code ∉ commandCodes) :
    decodeCommand c = .error (.unknownCommand c.code) := by
  simp only [commandCodes, List.mem_cons, not_or] at h
  simp only [decodeCommand, h, if_false]

theorem decodeCommand_named {c : PortCommand} (h : c.code ∈ commandCodes) :
    ∃ i, decodeCommand c = .ok i ∧ i.commandCode = some c.code := by
  obtain ⟨k, port, chunk, buffer⟩ := c
  have h' : k = 0x01 ∨ k = 0x02 ∨ k = 0x03 ∨ k = 0x04 ∨ k = 0x05 ∨ k = 0x06 ∨ k = 0x07 ∨ k = 0x08 ∨ k = 0x09 ∨
      k = 0x10 ∨ k = 0x11 ∨ k = 0x12 := by simpa [commandCodes] using h
  rcases h' with rfl | rfl | rfl | rfl | rfl | rfl | rfl | rfl | rfl | rfl | rfl | rfl <;> exact ⟨_, rfl, rfl⟩

/-- A command that decodes carries its code. -/
theorem decodeCommand_code {c : PortCommand} {i : Instr} (h : decodeCommand c = .ok i) :
    i.commandCode = some c.code := by
  by_cases hc : c.code ∈ commandCodes
  · obtain ⟨j, h1, h2⟩ := decodeCommand_named hc
    rw [h] at h1
    cases h1
    exact h2
  · rw [decodeCommand_default hc] at h
    cases h

/-- A command is refused exactly where its code is in no row of R109. -/
theorem decodeCommand_error {c : PortCommand} {e : DecodeError} (h : decodeCommand c = .error e) :
    e = .unknownCommand c.code ∧ ∀ i : Instr, i.commandCode ≠ some c.code := by
  by_cases hc : c.code ∈ commandCodes
  · obtain ⟨j, h1, h2⟩ := decodeCommand_named hc
    rw [h] at h1
    cases h1
  · rw [decodeCommand_default hc] at h
    cases h
    exact ⟨rfl, fun i hi => hc (commandCode_mem hi)⟩

end Sys2Proof
end

