-- ==== Sys2Proof/Laws/State.lean ====
section
/-! SUPPORT. One lemma per field per update of the state, so that no later proof unfolds a record update; and one frame
lemma for each named operation: everything it can change. -/

namespace Sys2Proof.Machine.State

/-! ## emit -/

@[simp] theorem emit_params (e : Event) (s : State) : (s.emit e).params = s.params := rfl
@[simp] theorem emit_localPort (e : Event) (s : State) : (s.emit e).localPort = s.localPort := rfl
@[simp] theorem emit_remotePort (e : Event) (s : State) : (s.emit e).remotePort = s.remotePort := rfl
@[simp] theorem emit_localVerificationTag (e : Event) (s : State) : (s.emit e).localVerificationTag = s.localVerificationTag := rfl
@[simp] theorem emit_remoteVerificationTag (e : Event) (s : State) : (s.emit e).remoteVerificationTag = s.remoteVerificationTag := rfl
@[simp] theorem emit_localInitialTSN (e : Event) (s : State) : (s.emit e).localInitialTSN = s.localInitialTSN := rfl
@[simp] theorem emit_lastReceivedTSN (e : Event) (s : State) : (s.emit e).lastReceivedTSN = s.lastReceivedTSN := rfl
@[simp] theorem emit_lastReceivedTSNValid (e : Event) (s : State) : (s.emit e).lastReceivedTSNValid = s.lastReceivedTSNValid := rfl
@[simp] theorem emit_state (e : Event) (s : State) : (s.emit e).state = s.state := rfl
@[simp] theorem emit_wrapper (e : Event) (s : State) : (s.emit e).wrapper = s.wrapper := rfl
@[simp] theorem emit_initRetransmissions (e : Event) (s : State) : (s.emit e).initRetransmissions = s.initRetransmissions := rfl
@[simp] theorem emit_timers (e : Event) (s : State) : (s.emit e).timers = s.timers := rfl
@[simp] theorem emit_pendingAcknowledge (e : Event) (s : State) : (s.emit e).pendingAcknowledge = s.pendingAcknowledge := rfl
@[simp] theorem emit_pendingAcknowledgeTimeout (e : Event) (s : State) : (s.emit e).pendingAcknowledgeTimeout = s.pendingAcknowledgeTimeout := rfl
@[simp] theorem emit_pendingData (e : Event) (s : State) : (s.emit e).pendingData = s.pendingData := rfl
@[simp] theorem emit_terminated (e : Event) (s : State) : (s.emit e).terminated = s.terminated := rfl
@[simp] theorem emit_peerCookie (e : Event) (s : State) : (s.emit e).peerCookie = s.peerCookie := rfl
@[simp] theorem emit_queue (e : Event) (s : State) : (s.emit e).queue = s.queue := rfl
@[simp] theorem emit_receivedTSNs (e : Event) (s : State) : (s.emit e).receivedTSNs = s.receivedTSNs := rfl
@[simp] theorem emit_log (e : Event) (s : State) : (s.emit e).log = s.log := rfl
@[simp] theorem emit_ingress (e : Event) (s : State) : (s.emit e).ingress = s.ingress := rfl
@[simp] theorem emit_tx (e : Event) (s : State) : (s.emit e).tx = s.tx := rfl
@[simp] theorem emit_wp (e : Event) (s : State) : (s.emit e).wp = s.wp := rfl
@[simp] theorem emit_port (e : Event) (s : State) : (s.emit e).port = s.port := rfl
@[simp] theorem emit_results (e : Event) (s : State) : (s.emit e).results = s.results := rfl
@[simp] theorem emit_draws (e : Event) (s : State) : (s.emit e).draws = s.draws := rfl
@[simp] theorem emit_freeDraws (e : Event) (s : State) : (s.emit e).freeDraws = s.freeDraws := rfl

@[simp] theorem emit_events (e : Event) (s : State) : (s.emit e).events = s.events ++ [e] := rfl

/-! ## answer -/

@[simp] theorem answer_params (r : Result) (s : State) : (s.answer r).params = s.params := rfl
@[simp] theorem answer_localPort (r : Result) (s : State) : (s.answer r).localPort = s.localPort := rfl
@[simp] theorem answer_remotePort (r : Result) (s : State) : (s.answer r).remotePort = s.remotePort := rfl
@[simp] theorem answer_localVerificationTag (r : Result) (s : State) : (s.answer r).localVerificationTag = s.localVerificationTag := rfl
@[simp] theorem answer_remoteVerificationTag (r : Result) (s : State) : (s.answer r).remoteVerificationTag = s.remoteVerificationTag := rfl
@[simp] theorem answer_localInitialTSN (r : Result) (s : State) : (s.answer r).localInitialTSN = s.localInitialTSN := rfl
@[simp] theorem answer_lastReceivedTSN (r : Result) (s : State) : (s.answer r).lastReceivedTSN = s.lastReceivedTSN := rfl
@[simp] theorem answer_lastReceivedTSNValid (r : Result) (s : State) : (s.answer r).lastReceivedTSNValid = s.lastReceivedTSNValid := rfl
@[simp] theorem answer_state (r : Result) (s : State) : (s.answer r).state = s.state := rfl
@[simp] theorem answer_wrapper (r : Result) (s : State) : (s.answer r).wrapper = s.wrapper := rfl
@[simp] theorem answer_initRetransmissions (r : Result) (s : State) : (s.answer r).initRetransmissions = s.initRetransmissions := rfl
@[simp] theorem answer_timers (r : Result) (s : State) : (s.answer r).timers = s.timers := rfl
@[simp] theorem answer_pendingAcknowledge (r : Result) (s : State) : (s.answer r).pendingAcknowledge = s.pendingAcknowledge := rfl
@[simp] theorem answer_pendingAcknowledgeTimeout (r : Result) (s : State) : (s.answer r).pendingAcknowledgeTimeout = s.pendingAcknowledgeTimeout := rfl
@[simp] theorem answer_pendingData (r : Result) (s : State) : (s.answer r).pendingData = s.pendingData := rfl
@[simp] theorem answer_terminated (r : Result) (s : State) : (s.answer r).terminated = s.terminated := rfl
@[simp] theorem answer_peerCookie (r : Result) (s : State) : (s.answer r).peerCookie = s.peerCookie := rfl
@[simp] theorem answer_queue (r : Result) (s : State) : (s.answer r).queue = s.queue := rfl
@[simp] theorem answer_receivedTSNs (r : Result) (s : State) : (s.answer r).receivedTSNs = s.receivedTSNs := rfl
@[simp] theorem answer_events (r : Result) (s : State) : (s.answer r).events = s.events := rfl
@[simp] theorem answer_log (r : Result) (s : State) : (s.answer r).log = s.log := rfl
@[simp] theorem answer_ingress (r : Result) (s : State) : (s.answer r).ingress = s.ingress := rfl
@[simp] theorem answer_tx (r : Result) (s : State) : (s.answer r).tx = s.tx := rfl
@[simp] theorem answer_wp (r : Result) (s : State) : (s.answer r).wp = s.wp := rfl
@[simp] theorem answer_port (r : Result) (s : State) : (s.answer r).port = s.port := rfl
@[simp] theorem answer_draws (r : Result) (s : State) : (s.answer r).draws = s.draws := rfl
@[simp] theorem answer_freeDraws (r : Result) (s : State) : (s.answer r).freeDraws = s.freeDraws := rfl

@[simp] theorem answer_results (r : Result) (s : State) : (s.answer r).results = s.results ++ [r] := rfl

/-! ## raise -/

@[simp] theorem raise_params (e : LogEntry) (s : State) : (s.raise e).params = s.params := rfl
@[simp] theorem raise_localPort (e : LogEntry) (s : State) : (s.raise e).localPort = s.localPort := rfl
@[simp] theorem raise_remotePort (e : LogEntry) (s : State) : (s.raise e).remotePort = s.remotePort := rfl
@[simp] theorem raise_localVerificationTag (e : LogEntry) (s : State) : (s.raise e).localVerificationTag = s.localVerificationTag := rfl
@[simp] theorem raise_remoteVerificationTag (e : LogEntry) (s : State) : (s.raise e).remoteVerificationTag = s.remoteVerificationTag := rfl
@[simp] theorem raise_localInitialTSN (e : LogEntry) (s : State) : (s.raise e).localInitialTSN = s.localInitialTSN := rfl
@[simp] theorem raise_lastReceivedTSN (e : LogEntry) (s : State) : (s.raise e).lastReceivedTSN = s.lastReceivedTSN := rfl
@[simp] theorem raise_lastReceivedTSNValid (e : LogEntry) (s : State) : (s.raise e).lastReceivedTSNValid = s.lastReceivedTSNValid := rfl
@[simp] theorem raise_state (e : LogEntry) (s : State) : (s.raise e).state = s.state := rfl
@[simp] theorem raise_wrapper (e : LogEntry) (s : State) : (s.raise e).wrapper = s.wrapper := rfl
@[simp] theorem raise_initRetransmissions (e : LogEntry) (s : State) : (s.raise e).initRetransmissions = s.initRetransmissions := rfl
@[simp] theorem raise_timers (e : LogEntry) (s : State) : (s.raise e).timers = s.timers := rfl
@[simp] theorem raise_pendingAcknowledge (e : LogEntry) (s : State) : (s.raise e).pendingAcknowledge = s.pendingAcknowledge := rfl
@[simp] theorem raise_pendingAcknowledgeTimeout (e : LogEntry) (s : State) : (s.raise e).pendingAcknowledgeTimeout = s.pendingAcknowledgeTimeout := rfl
@[simp] theorem raise_pendingData (e : LogEntry) (s : State) : (s.raise e).pendingData = s.pendingData := rfl
@[simp] theorem raise_terminated (e : LogEntry) (s : State) : (s.raise e).terminated = s.terminated := rfl
@[simp] theorem raise_peerCookie (e : LogEntry) (s : State) : (s.raise e).peerCookie = s.peerCookie := rfl
@[simp] theorem raise_queue (e : LogEntry) (s : State) : (s.raise e).queue = s.queue := rfl
@[simp] theorem raise_receivedTSNs (e : LogEntry) (s : State) : (s.raise e).receivedTSNs = s.receivedTSNs := rfl
@[simp] theorem raise_events (e : LogEntry) (s : State) : (s.raise e).events = s.events := rfl
@[simp] theorem raise_ingress (e : LogEntry) (s : State) : (s.raise e).ingress = s.ingress := rfl
@[simp] theorem raise_tx (e : LogEntry) (s : State) : (s.raise e).tx = s.tx := rfl
@[simp] theorem raise_wp (e : LogEntry) (s : State) : (s.raise e).wp = s.wp := rfl
@[simp] theorem raise_port (e : LogEntry) (s : State) : (s.raise e).port = s.port := rfl
@[simp] theorem raise_results (e : LogEntry) (s : State) : (s.raise e).results = s.results := rfl
@[simp] theorem raise_draws (e : LogEntry) (s : State) : (s.raise e).draws = s.draws := rfl
@[simp] theorem raise_freeDraws (e : LogEntry) (s : State) : (s.raise e).freeDraws = s.freeDraws := rfl

@[simp] theorem raise_log (e : LogEntry) (s : State) : (s.raise e).log = s.log ++ [e] := rfl

/-! ## resumeAt -/

@[simp] theorem resumeAt_params (n : Nat) (s : State) : (s.resumeAt n).params = s.params := rfl
@[simp] theorem resumeAt_localPort (n : Nat) (s : State) : (s.resumeAt n).localPort = s.localPort := rfl
@[simp] theorem resumeAt_remotePort (n : Nat) (s : State) : (s.resumeAt n).remotePort = s.remotePort := rfl
@[simp] theorem resumeAt_localVerificationTag (n : Nat) (s : State) : (s.resumeAt n).localVerificationTag = s.localVerificationTag := rfl
@[simp] theorem resumeAt_remoteVerificationTag (n : Nat) (s : State) : (s.resumeAt n).remoteVerificationTag = s.remoteVerificationTag := rfl
@[simp] theorem resumeAt_localInitialTSN (n : Nat) (s : State) : (s.resumeAt n).localInitialTSN = s.localInitialTSN := rfl
@[simp] theorem resumeAt_lastReceivedTSN (n : Nat) (s : State) : (s.resumeAt n).lastReceivedTSN = s.lastReceivedTSN := rfl
@[simp] theorem resumeAt_lastReceivedTSNValid (n : Nat) (s : State) : (s.resumeAt n).lastReceivedTSNValid = s.lastReceivedTSNValid := rfl
@[simp] theorem resumeAt_state (n : Nat) (s : State) : (s.resumeAt n).state = s.state := rfl
@[simp] theorem resumeAt_wrapper (n : Nat) (s : State) : (s.resumeAt n).wrapper = s.wrapper := rfl
@[simp] theorem resumeAt_initRetransmissions (n : Nat) (s : State) : (s.resumeAt n).initRetransmissions = s.initRetransmissions := rfl
@[simp] theorem resumeAt_timers (n : Nat) (s : State) : (s.resumeAt n).timers = s.timers := rfl
@[simp] theorem resumeAt_pendingAcknowledge (n : Nat) (s : State) : (s.resumeAt n).pendingAcknowledge = s.pendingAcknowledge := rfl
@[simp] theorem resumeAt_pendingAcknowledgeTimeout (n : Nat) (s : State) : (s.resumeAt n).pendingAcknowledgeTimeout = s.pendingAcknowledgeTimeout := rfl
@[simp] theorem resumeAt_pendingData (n : Nat) (s : State) : (s.resumeAt n).pendingData = s.pendingData := rfl
@[simp] theorem resumeAt_terminated (n : Nat) (s : State) : (s.resumeAt n).terminated = s.terminated := rfl
@[simp] theorem resumeAt_peerCookie (n : Nat) (s : State) : (s.resumeAt n).peerCookie = s.peerCookie := rfl
@[simp] theorem resumeAt_queue (n : Nat) (s : State) : (s.resumeAt n).queue = s.queue := rfl
@[simp] theorem resumeAt_receivedTSNs (n : Nat) (s : State) : (s.resumeAt n).receivedTSNs = s.receivedTSNs := rfl
@[simp] theorem resumeAt_events (n : Nat) (s : State) : (s.resumeAt n).events = s.events := rfl
@[simp] theorem resumeAt_log (n : Nat) (s : State) : (s.resumeAt n).log = s.log := rfl
@[simp] theorem resumeAt_tx (n : Nat) (s : State) : (s.resumeAt n).tx = s.tx := rfl
@[simp] theorem resumeAt_wp (n : Nat) (s : State) : (s.resumeAt n).wp = s.wp := rfl
@[simp] theorem resumeAt_port (n : Nat) (s : State) : (s.resumeAt n).port = s.port := rfl
@[simp] theorem resumeAt_results (n : Nat) (s : State) : (s.resumeAt n).results = s.results := rfl
@[simp] theorem resumeAt_draws (n : Nat) (s : State) : (s.resumeAt n).draws = s.draws := rfl
@[simp] theorem resumeAt_freeDraws (n : Nat) (s : State) : (s.resumeAt n).freeDraws = s.freeDraws := rfl

@[simp] theorem resumeAt_ingress (n : Nat) (s : State) :
    (s.resumeAt n).ingress = s.ingress.map fun g => { g with pc := n, params := none } := rfl

/-! ## dropRest -/

@[simp] theorem dropRest_params (s : State) : (s.dropRest).params = s.params := rfl
@[simp] theorem dropRest_localPort (s : State) : (s.dropRest).localPort = s.localPort := rfl
@[simp] theorem dropRest_remotePort (s : State) : (s.dropRest).remotePort = s.remotePort := rfl
@[simp] theorem dropRest_localVerificationTag (s : State) : (s.dropRest).localVerificationTag = s.localVerificationTag := rfl
@[simp] theorem dropRest_remoteVerificationTag (s : State) : (s.dropRest).remoteVerificationTag = s.remoteVerificationTag := rfl
@[simp] theorem dropRest_localInitialTSN (s : State) : (s.dropRest).localInitialTSN = s.localInitialTSN := rfl
@[simp] theorem dropRest_lastReceivedTSN (s : State) : (s.dropRest).lastReceivedTSN = s.lastReceivedTSN := rfl
@[simp] theorem dropRest_lastReceivedTSNValid (s : State) : (s.dropRest).lastReceivedTSNValid = s.lastReceivedTSNValid := rfl
@[simp] theorem dropRest_state (s : State) : (s.dropRest).state = s.state := rfl
@[simp] theorem dropRest_wrapper (s : State) : (s.dropRest).wrapper = s.wrapper := rfl
@[simp] theorem dropRest_initRetransmissions (s : State) : (s.dropRest).initRetransmissions = s.initRetransmissions := rfl
@[simp] theorem dropRest_timers (s : State) : (s.dropRest).timers = s.timers := rfl
@[simp] theorem dropRest_pendingAcknowledge (s : State) : (s.dropRest).pendingAcknowledge = s.pendingAcknowledge := rfl
@[simp] theorem dropRest_pendingAcknowledgeTimeout (s : State) : (s.dropRest).pendingAcknowledgeTimeout = s.pendingAcknowledgeTimeout := rfl
@[simp] theorem dropRest_pendingData (s : State) : (s.dropRest).pendingData = s.pendingData := rfl
@[simp] theorem dropRest_terminated (s : State) : (s.dropRest).terminated = s.terminated := rfl
@[simp] theorem dropRest_peerCookie (s : State) : (s.dropRest).peerCookie = s.peerCookie := rfl
@[simp] theorem dropRest_queue (s : State) : (s.dropRest).queue = s.queue := rfl
@[simp] theorem dropRest_receivedTSNs (s : State) : (s.dropRest).receivedTSNs = s.receivedTSNs := rfl
@[simp] theorem dropRest_events (s : State) : (s.dropRest).events = s.events := rfl
@[simp] theorem dropRest_log (s : State) : (s.dropRest).log = s.log := rfl
@[simp] theorem dropRest_tx (s : State) : (s.dropRest).tx = s.tx := rfl
@[simp] theorem dropRest_wp (s : State) : (s.dropRest).wp = s.wp := rfl
@[simp] theorem dropRest_port (s : State) : (s.dropRest).port = s.port := rfl
@[simp] theorem dropRest_results (s : State) : (s.dropRest).results = s.results := rfl
@[simp] theorem dropRest_draws (s : State) : (s.dropRest).draws = s.draws := rfl
@[simp] theorem dropRest_freeDraws (s : State) : (s.dropRest).freeDraws = s.freeDraws := rfl

@[simp] theorem dropRest_ingress (s : State) :
    s.dropRest.ingress = s.ingress.map fun g => { g with pc := g.rx.size, params := none } := rfl

/-! ## setTimer -/

@[simp] theorem setTimer_params (i : TimerId) (v : Slot) (s : State) : (s.setTimer i v).params = s.params := by cases i <;> rfl
@[simp] theorem setTimer_localPort (i : TimerId) (v : Slot) (s : State) : (s.setTimer i v).localPort = s.localPort := by cases i <;> rfl
@[simp] theorem setTimer_remotePort (i : TimerId) (v : Slot) (s : State) : (s.setTimer i v).remotePort = s.remotePort := by cases i <;> rfl
@[simp] theorem setTimer_localVerificationTag (i : TimerId) (v : Slot) (s : State) : (s.setTimer i v).localVerificationTag = s.localVerificationTag := by cases i <;> rfl
@[simp] theorem setTimer_remoteVerificationTag (i : TimerId) (v : Slot) (s : State) : (s.setTimer i v).remoteVerificationTag = s.remoteVerificationTag := by cases i <;> rfl
@[simp] theorem setTimer_localInitialTSN (i : TimerId) (v : Slot) (s : State) : (s.setTimer i v).localInitialTSN = s.localInitialTSN := by cases i <;> rfl
@[simp] theorem setTimer_lastReceivedTSN (i : TimerId) (v : Slot) (s : State) : (s.setTimer i v).lastReceivedTSN = s.lastReceivedTSN := by cases i <;> rfl
@[simp] theorem setTimer_lastReceivedTSNValid (i : TimerId) (v : Slot) (s : State) : (s.setTimer i v).lastReceivedTSNValid = s.lastReceivedTSNValid := by cases i <;> rfl
@[simp] theorem setTimer_state (i : TimerId) (v : Slot) (s : State) : (s.setTimer i v).state = s.state := by cases i <;> rfl
@[simp] theorem setTimer_wrapper (i : TimerId) (v : Slot) (s : State) : (s.setTimer i v).wrapper = s.wrapper := by cases i <;> rfl
@[simp] theorem setTimer_initRetransmissions (i : TimerId) (v : Slot) (s : State) : (s.setTimer i v).initRetransmissions = s.initRetransmissions := by cases i <;> rfl
@[simp] theorem setTimer_pendingAcknowledge (i : TimerId) (v : Slot) (s : State) : (s.setTimer i v).pendingAcknowledge = s.pendingAcknowledge := by cases i <;> rfl
@[simp] theorem setTimer_pendingAcknowledgeTimeout (i : TimerId) (v : Slot) (s : State) : (s.setTimer i v).pendingAcknowledgeTimeout = s.pendingAcknowledgeTimeout := by cases i <;> rfl
@[simp] theorem setTimer_pendingData (i : TimerId) (v : Slot) (s : State) : (s.setTimer i v).pendingData = s.pendingData := by cases i <;> rfl
@[simp] theorem setTimer_terminated (i : TimerId) (v : Slot) (s : State) : (s.setTimer i v).terminated = s.terminated := by cases i <;> rfl
@[simp] theorem setTimer_peerCookie (i : TimerId) (v : Slot) (s : State) : (s.setTimer i v).peerCookie = s.peerCookie := by cases i <;> rfl
@[simp] theorem setTimer_queue (i : TimerId) (v : Slot) (s : State) : (s.setTimer i v).queue = s.queue := by cases i <;> rfl
@[simp] theorem setTimer_receivedTSNs (i : TimerId) (v : Slot) (s : State) : (s.setTimer i v).receivedTSNs = s.receivedTSNs := by cases i <;> rfl
@[simp] theorem setTimer_events (i : TimerId) (v : Slot) (s : State) : (s.setTimer i v).events = s.events := by cases i <;> rfl
@[simp] theorem setTimer_log (i : TimerId) (v : Slot) (s : State) : (s.setTimer i v).log = s.log := by cases i <;> rfl
@[simp] theorem setTimer_ingress (i : TimerId) (v : Slot) (s : State) : (s.setTimer i v).ingress = s.ingress := by cases i <;> rfl
@[simp] theorem setTimer_tx (i : TimerId) (v : Slot) (s : State) : (s.setTimer i v).tx = s.tx := by cases i <;> rfl
@[simp] theorem setTimer_wp (i : TimerId) (v : Slot) (s : State) : (s.setTimer i v).wp = s.wp := by cases i <;> rfl
@[simp] theorem setTimer_port (i : TimerId) (v : Slot) (s : State) : (s.setTimer i v).port = s.port := by cases i <;> rfl
@[simp] theorem setTimer_results (i : TimerId) (v : Slot) (s : State) : (s.setTimer i v).results = s.results := by cases i <;> rfl
@[simp] theorem setTimer_draws (i : TimerId) (v : Slot) (s : State) : (s.setTimer i v).draws = s.draws := by cases i <;> rfl
@[simp] theorem setTimer_freeDraws (i : TimerId) (v : Slot) (s : State) : (s.setTimer i v).freeDraws = s.freeDraws := by cases i <;> rfl

@[simp] theorem timer_setTimer_same (i : TimerId) (v : Slot) (s : State) : (s.setTimer i v).timer i = v := by
  cases i <;> rfl

theorem timer_setTimer_other {i j : TimerId} (h : i ≠ j) (v : Slot) (s : State) :
    (s.setTimer i v).timer j = s.timer j := by
  cases i <;> cases j <;> simp_all [setTimer, timer]

/-! ## arm -/

@[simp] theorem arm_params (i : TimerId) (d : Nat) (s : State) : (s.arm i d).params = s.params := by cases i <;> rfl
@[simp] theorem arm_localPort (i : TimerId) (d : Nat) (s : State) : (s.arm i d).localPort = s.localPort := by cases i <;> rfl
@[simp] theorem arm_remotePort (i : TimerId) (d : Nat) (s : State) : (s.arm i d).remotePort = s.remotePort := by cases i <;> rfl
@[simp] theorem arm_localVerificationTag (i : TimerId) (d : Nat) (s : State) : (s.arm i d).localVerificationTag = s.localVerificationTag := by cases i <;> rfl
@[simp] theorem arm_remoteVerificationTag (i : TimerId) (d : Nat) (s : State) : (s.arm i d).remoteVerificationTag = s.remoteVerificationTag := by cases i <;> rfl
@[simp] theorem arm_localInitialTSN (i : TimerId) (d : Nat) (s : State) : (s.arm i d).localInitialTSN = s.localInitialTSN := by cases i <;> rfl
@[simp] theorem arm_lastReceivedTSN (i : TimerId) (d : Nat) (s : State) : (s.arm i d).lastReceivedTSN = s.lastReceivedTSN := by cases i <;> rfl
@[simp] theorem arm_lastReceivedTSNValid (i : TimerId) (d : Nat) (s : State) : (s.arm i d).lastReceivedTSNValid = s.lastReceivedTSNValid := by cases i <;> rfl
@[simp] theorem arm_state (i : TimerId) (d : Nat) (s : State) : (s.arm i d).state = s.state := by cases i <;> rfl
@[simp] theorem arm_wrapper (i : TimerId) (d : Nat) (s : State) : (s.arm i d).wrapper = s.wrapper := by cases i <;> rfl
@[simp] theorem arm_initRetransmissions (i : TimerId) (d : Nat) (s : State) : (s.arm i d).initRetransmissions = s.initRetransmissions := by cases i <;> rfl
@[simp] theorem arm_pendingAcknowledge (i : TimerId) (d : Nat) (s : State) : (s.arm i d).pendingAcknowledge = s.pendingAcknowledge := by cases i <;> rfl
@[simp] theorem arm_pendingAcknowledgeTimeout (i : TimerId) (d : Nat) (s : State) : (s.arm i d).pendingAcknowledgeTimeout = s.pendingAcknowledgeTimeout := by cases i <;> rfl
@[simp] theorem arm_pendingData (i : TimerId) (d : Nat) (s : State) : (s.arm i d).pendingData = s.pendingData := by cases i <;> rfl
@[simp] theorem arm_terminated (i : TimerId) (d : Nat) (s : State) : (s.arm i d).terminated = s.terminated := by cases i <;> rfl
@[simp] theorem arm_peerCookie (i : TimerId) (d : Nat) (s : State) : (s.arm i d).peerCookie = s.peerCookie := by cases i <;> rfl
@[simp] theorem arm_queue (i : TimerId) (d : Nat) (s : State) : (s.arm i d).queue = s.queue := by cases i <;> rfl
@[simp] theorem arm_receivedTSNs (i : TimerId) (d : Nat) (s : State) : (s.arm i d).receivedTSNs = s.receivedTSNs := by cases i <;> rfl
@[simp] theorem arm_log (i : TimerId) (d : Nat) (s : State) : (s.arm i d).log = s.log := by cases i <;> rfl
@[simp] theorem arm_ingress (i : TimerId) (d : Nat) (s : State) : (s.arm i d).ingress = s.ingress := by cases i <;> rfl
@[simp] theorem arm_tx (i : TimerId) (d : Nat) (s : State) : (s.arm i d).tx = s.tx := by cases i <;> rfl
@[simp] theorem arm_wp (i : TimerId) (d : Nat) (s : State) : (s.arm i d).wp = s.wp := by cases i <;> rfl
@[simp] theorem arm_port (i : TimerId) (d : Nat) (s : State) : (s.arm i d).port = s.port := by cases i <;> rfl
@[simp] theorem arm_results (i : TimerId) (d : Nat) (s : State) : (s.arm i d).results = s.results := by cases i <;> rfl
@[simp] theorem arm_draws (i : TimerId) (d : Nat) (s : State) : (s.arm i d).draws = s.draws := by cases i <;> rfl
@[simp] theorem arm_freeDraws (i : TimerId) (d : Nat) (s : State) : (s.arm i d).freeDraws = s.freeDraws := by cases i <;> rfl

@[simp] theorem arm_timer (i : TimerId) (d : Nat) (s : State) : (s.arm i d).timer i = .armed d := by
  cases i <;> rfl

@[simp] theorem arm_events (i : TimerId) (d : Nat) (s : State) :
    (s.arm i d).events = s.events ++ [.timerArm i d] := by
  cases i <;> rfl

/-- `Cancel(i)` changes nothing on an idle slot, and one slot and one event on an armed one (10 R27). -/
theorem cancel_cases (i : TimerId) (s : State) :
    ((s.timer i).isArmed = false ∧ s.cancel i = s) ∨
    ((s.timer i).isArmed = true ∧ s.cancel i = (s.setTimer i .idle).emit (.timerCancel i)) := by
  unfold cancel
  cases h : (s.timer i).isArmed <;> simp

/-- Everything `Cancel(i)` can change. -/
theorem cancel_frame (i : TimerId) (s : State) :
    ∃ tm ev, s.cancel i = { s with timers := tm, events := ev } := by
  rcases cancel_cases i s with ⟨-, h⟩ | ⟨-, h⟩
  · exact ⟨s.timers, s.events, h⟩
  · cases i <;> exact ⟨_, _, h⟩

/-- A cancelled slot is idle. -/
@[simp] theorem cancel_timer (i : TimerId) (s : State) : (s.cancel i).timer i = .idle := by
  rcases cancel_cases i s with ⟨h, e⟩ | ⟨-, e⟩
  · rw [e]
    cases hs : s.timer i with
    | idle => rfl
    | armed d => simp [hs, Slot.isArmed] at h
  · rw [e]
    cases i <;> rfl

theorem cancel_timer_other {i j : TimerId} (h : i ≠ j) (s : State) : (s.cancel i).timer j = s.timer j := by
  rcases cancel_cases i s with ⟨-, e⟩ | ⟨-, e⟩
  · rw [e]
  · rw [e]
    exact timer_setTimer_other h _ s

/-! ## cancel -/

@[simp] theorem cancel_params (i : TimerId) (s : State) : (s.cancel i).params = s.params := by obtain ⟨_, _, h⟩ := cancel_frame i s; rw [h]
@[simp] theorem cancel_localPort (i : TimerId) (s : State) : (s.cancel i).localPort = s.localPort := by obtain ⟨_, _, h⟩ := cancel_frame i s; rw [h]
@[simp] theorem cancel_remotePort (i : TimerId) (s : State) : (s.cancel i).remotePort = s.remotePort := by obtain ⟨_, _, h⟩ := cancel_frame i s; rw [h]
@[simp] theorem cancel_localVerificationTag (i : TimerId) (s : State) : (s.cancel i).localVerificationTag = s.localVerificationTag := by obtain ⟨_, _, h⟩ := cancel_frame i s; rw [h]
@[simp] theorem cancel_remoteVerificationTag (i : TimerId) (s : State) : (s.cancel i).remoteVerificationTag = s.remoteVerificationTag := by obtain ⟨_, _, h⟩ := cancel_frame i s; rw [h]
@[simp] theorem cancel_localInitialTSN (i : TimerId) (s : State) : (s.cancel i).localInitialTSN = s.localInitialTSN := by obtain ⟨_, _, h⟩ := cancel_frame i s; rw [h]
@[simp] theorem cancel_lastReceivedTSN (i : TimerId) (s : State) : (s.cancel i).lastReceivedTSN = s.lastReceivedTSN := by obtain ⟨_, _, h⟩ := cancel_frame i s; rw [h]
@[simp] theorem cancel_lastReceivedTSNValid (i : TimerId) (s : State) : (s.cancel i).lastReceivedTSNValid = s.lastReceivedTSNValid := by obtain ⟨_, _, h⟩ := cancel_frame i s; rw [h]
@[simp] theorem cancel_state (i : TimerId) (s : State) : (s.cancel i).state = s.state := by obtain ⟨_, _, h⟩ := cancel_frame i s; rw [h]
@[simp] theorem cancel_wrapper (i : TimerId) (s : State) : (s.cancel i).wrapper = s.wrapper := by obtain ⟨_, _, h⟩ := cancel_frame i s; rw [h]
@[simp] theorem cancel_initRetransmissions (i : TimerId) (s : State) : (s.cancel i).initRetransmissions = s.initRetransmissions := by obtain ⟨_, _, h⟩ := cancel_frame i s; rw [h]
@[simp] theorem cancel_pendingAcknowledge (i : TimerId) (s : State) : (s.cancel i).pendingAcknowledge = s.pendingAcknowledge := by obtain ⟨_, _, h⟩ := cancel_frame i s; rw [h]
@[simp] theorem cancel_pendingAcknowledgeTimeout (i : TimerId) (s : State) : (s.cancel i).pendingAcknowledgeTimeout = s.pendingAcknowledgeTimeout := by obtain ⟨_, _, h⟩ := cancel_frame i s; rw [h]
@[simp] theorem cancel_pendingData (i : TimerId) (s : State) : (s.cancel i).pendingData = s.pendingData := by obtain ⟨_, _, h⟩ := cancel_frame i s; rw [h]
@[simp] theorem cancel_terminated (i : TimerId) (s : State) : (s.cancel i).terminated = s.terminated := by obtain ⟨_, _, h⟩ := cancel_frame i s; rw [h]
@[simp] theorem cancel_peerCookie (i : TimerId) (s : State) : (s.cancel i).peerCookie = s.peerCookie := by obtain ⟨_, _, h⟩ := cancel_frame i s; rw [h]
@[simp] theorem cancel_queue (i : TimerId) (s : State) : (s.cancel i).queue = s.queue := by obtain ⟨_, _, h⟩ := cancel_frame i s; rw [h]
@[simp] theorem cancel_receivedTSNs (i : TimerId) (s : State) : (s.cancel i).receivedTSNs = s.receivedTSNs := by obtain ⟨_, _, h⟩ := cancel_frame i s; rw [h]
@[simp] theorem cancel_log (i : TimerId) (s : State) : (s.cancel i).log = s.log := by obtain ⟨_, _, h⟩ := cancel_frame i s; rw [h]
@[simp] theorem cancel_ingress (i : TimerId) (s : State) : (s.cancel i).ingress = s.ingress := by obtain ⟨_, _, h⟩ := cancel_frame i s; rw [h]
@[simp] theorem cancel_tx (i : TimerId) (s : State) : (s.cancel i).tx = s.tx := by obtain ⟨_, _, h⟩ := cancel_frame i s; rw [h]
@[simp] theorem cancel_wp (i : TimerId) (s : State) : (s.cancel i).wp = s.wp := by obtain ⟨_, _, h⟩ := cancel_frame i s; rw [h]
@[simp] theorem cancel_port (i : TimerId) (s : State) : (s.cancel i).port = s.port := by obtain ⟨_, _, h⟩ := cancel_frame i s; rw [h]
@[simp] theorem cancel_results (i : TimerId) (s : State) : (s.cancel i).results = s.results := by obtain ⟨_, _, h⟩ := cancel_frame i s; rw [h]
@[simp] theorem cancel_draws (i : TimerId) (s : State) : (s.cancel i).draws = s.draws := by obtain ⟨_, _, h⟩ := cancel_frame i s; rw [h]
@[simp] theorem cancel_freeDraws (i : TimerId) (s : State) : (s.cancel i).freeDraws = s.freeDraws := by obtain ⟨_, _, h⟩ := cancel_frame i s; rw [h]

/-! ## Errors -/

/-- Everything taking an error can change: the log, the results, the packet in progress (60 R400, R431). -/
theorem takeError_frame (e : LogEntry) (r : Recovery) (s : State) :
    ∃ rs g, s.takeError e r = { s with log := s.log ++ [e], results := rs, ingress := g } := by
  cases r <;> exact ⟨_, _, rfl⟩

@[simp] theorem takeError_log (e : LogEntry) (r : Recovery) (s : State) : (s.takeError e r).log = s.log ++ [e] := by
  cases r <;> rfl

/-! ## takeError -/

@[simp] theorem takeError_params (e : LogEntry) (r : Recovery) (s : State) : (s.takeError e r).params = s.params := by cases r <;> rfl
@[simp] theorem takeError_localPort (e : LogEntry) (r : Recovery) (s : State) : (s.takeError e r).localPort = s.localPort := by cases r <;> rfl
@[simp] theorem takeError_remotePort (e : LogEntry) (r : Recovery) (s : State) : (s.takeError e r).remotePort = s.remotePort := by cases r <;> rfl
@[simp] theorem takeError_localVerificationTag (e : LogEntry) (r : Recovery) (s : State) : (s.takeError e r).localVerificationTag = s.localVerificationTag := by cases r <;> rfl
@[simp] theorem takeError_remoteVerificationTag (e : LogEntry) (r : Recovery) (s : State) : (s.takeError e r).remoteVerificationTag = s.remoteVerificationTag := by cases r <;> rfl
@[simp] theorem takeError_localInitialTSN (e : LogEntry) (r : Recovery) (s : State) : (s.takeError e r).localInitialTSN = s.localInitialTSN := by cases r <;> rfl
@[simp] theorem takeError_lastReceivedTSN (e : LogEntry) (r : Recovery) (s : State) : (s.takeError e r).lastReceivedTSN = s.lastReceivedTSN := by cases r <;> rfl
@[simp] theorem takeError_lastReceivedTSNValid (e : LogEntry) (r : Recovery) (s : State) : (s.takeError e r).lastReceivedTSNValid = s.lastReceivedTSNValid := by cases r <;> rfl
@[simp] theorem takeError_state (e : LogEntry) (r : Recovery) (s : State) : (s.takeError e r).state = s.state := by cases r <;> rfl
@[simp] theorem takeError_wrapper (e : LogEntry) (r : Recovery) (s : State) : (s.takeError e r).wrapper = s.wrapper := by cases r <;> rfl
@[simp] theorem takeError_initRetransmissions (e : LogEntry) (r : Recovery) (s : State) : (s.takeError e r).initRetransmissions = s.initRetransmissions := by cases r <;> rfl
@[simp] theorem takeError_timers (e : LogEntry) (r : Recovery) (s : State) : (s.takeError e r).timers = s.timers := by cases r <;> rfl
@[simp] theorem takeError_pendingAcknowledge (e : LogEntry) (r : Recovery) (s : State) : (s.takeError e r).pendingAcknowledge = s.pendingAcknowledge := by cases r <;> rfl
@[simp] theorem takeError_pendingAcknowledgeTimeout (e : LogEntry) (r : Recovery) (s : State) : (s.takeError e r).pendingAcknowledgeTimeout = s.pendingAcknowledgeTimeout := by cases r <;> rfl
@[simp] theorem takeError_pendingData (e : LogEntry) (r : Recovery) (s : State) : (s.takeError e r).pendingData = s.pendingData := by cases r <;> rfl
@[simp] theorem takeError_terminated (e : LogEntry) (r : Recovery) (s : State) : (s.takeError e r).terminated = s.terminated := by cases r <;> rfl
@[simp] theorem takeError_peerCookie (e : LogEntry) (r : Recovery) (s : State) : (s.takeError e r).peerCookie = s.peerCookie := by cases r <;> rfl
@[simp] theorem takeError_queue (e : LogEntry) (r : Recovery) (s : State) : (s.takeError e r).queue = s.queue := by cases r <;> rfl
@[simp] theorem takeError_receivedTSNs (e : LogEntry) (r : Recovery) (s : State) : (s.takeError e r).receivedTSNs = s.receivedTSNs := by cases r <;> rfl
@[simp] theorem takeError_events (e : LogEntry) (r : Recovery) (s : State) : (s.takeError e r).events = s.events := by cases r <;> rfl
@[simp] theorem takeError_tx (e : LogEntry) (r : Recovery) (s : State) : (s.takeError e r).tx = s.tx := by cases r <;> rfl
@[simp] theorem takeError_wp (e : LogEntry) (r : Recovery) (s : State) : (s.takeError e r).wp = s.wp := by cases r <;> rfl
@[simp] theorem takeError_port (e : LogEntry) (r : Recovery) (s : State) : (s.takeError e r).port = s.port := by cases r <;> rfl
@[simp] theorem takeError_draws (e : LogEntry) (r : Recovery) (s : State) : (s.takeError e r).draws = s.draws := by cases r <;> rfl
@[simp] theorem takeError_freeDraws (e : LogEntry) (r : Recovery) (s : State) : (s.takeError e r).freeDraws = s.freeDraws := by cases r <;> rfl

/-! ## Enqueue -/

/-- What `Enqueue(c)` does (46 R316): nothing after Abort; an error logged and false; or the record at the tail. -/
theorem enqueueResult_cases (c : Chunk) (s : State) :
    (s.terminated = true ∧ s.enqueueResult c = (false, s)) ∨
    (s.terminated = false ∧ ∃ w, s.enqueueRefusal c = some w ∧
      s.enqueueResult c = (false, s.raise (.enqueueRefused w (c.typeCode s.params.codes)))) ∨
    (s.terminated = false ∧ s.enqueueRefusal c = none ∧ s.enqueueResult c = (true, s.append c)) := by
  unfold enqueueResult
  cases ht : s.terminated
  · cases hr : s.enqueueRefusal c with
    | none => simp
    | some w => simp [takeError]
  · simp

/-- Everything `Enqueue(c)` can change. -/
theorem enqueue_frame (c : Chunk) (s : State) :
    ∃ q p ev lg, s.enqueue c = { s with queue := q, pendingData := p, events := ev, log := lg } := by
  unfold enqueue
  rcases enqueueResult_cases c s with ⟨-, h⟩ | ⟨-, w, -, h⟩ | ⟨-, -, h⟩ <;> rw [h]
  · exact ⟨_, _, _, _, rfl⟩
  · exact ⟨_, _, _, _, rfl⟩
  · unfold append
    split <;> exact ⟨_, _, _, _, rfl⟩

/-- A record enters the queue only well-formed and below the bound (46 R316). -/
theorem enqueueRefusal_none {c : Chunk} {s : State} (h : s.enqueueRefusal c = none) :
    c.wf s.params.codes = true ∧ ∀ q, s.params.queueMax = some q → s.queue.length < q := by
  unfold enqueueRefusal at h
  cases hw : c.wf s.params.codes with
  | false => simp [hw] at h
  | true =>
    refine ⟨rfl, fun q hq => ?_⟩
    simpa [hw, hq] using h

/-- The queue after `Enqueue`: unchanged, or the record at its tail. -/
theorem enqueue_queue_cases (c : Chunk) (s : State) :
    (s.enqueue c).queue = s.queue ∧ (s.enqueue c).pendingData = s.pendingData ∨
    (c.wf s.params.codes = true ∧ (∀ q, s.params.queueMax = some q → s.queue.length < q) ∧ s.terminated = false ∧
      (s.enqueue c).queue = s.queue ++ [c] ∧ (s.queue ≠ [] → (s.enqueue c).pendingData = s.pendingData) ∧
      (s.queue = [] → (s.enqueue c).pendingData = true)) := by
  unfold enqueue
  rcases enqueueResult_cases c s with ⟨-, h⟩ | ⟨-, w, -, h⟩ | ⟨ht, hr, h⟩ <;> rw [h]
  · exact .inl ⟨rfl, rfl⟩
  · exact .inl ⟨rfl, rfl⟩
  · have hn := enqueueRefusal_none hr
    refine .inr ⟨hn.1, hn.2, ht, ?_, ?_, ?_⟩ <;> unfold append <;> by_cases hq : s.queue = [] <;> simp [hq]

/-! ## enqueue -/

@[simp] theorem enqueue_params (c : Chunk) (s : State) : (s.enqueue c).params = s.params := by obtain ⟨_, _, _, _, h⟩ := enqueue_frame c s; rw [h]
@[simp] theorem enqueue_localPort (c : Chunk) (s : State) : (s.enqueue c).localPort = s.localPort := by obtain ⟨_, _, _, _, h⟩ := enqueue_frame c s; rw [h]
@[simp] theorem enqueue_remotePort (c : Chunk) (s : State) : (s.enqueue c).remotePort = s.remotePort := by obtain ⟨_, _, _, _, h⟩ := enqueue_frame c s; rw [h]
@[simp] theorem enqueue_localVerificationTag (c : Chunk) (s : State) : (s.enqueue c).localVerificationTag = s.localVerificationTag := by obtain ⟨_, _, _, _, h⟩ := enqueue_frame c s; rw [h]
@[simp] theorem enqueue_remoteVerificationTag (c : Chunk) (s : State) : (s.enqueue c).remoteVerificationTag = s.remoteVerificationTag := by obtain ⟨_, _, _, _, h⟩ := enqueue_frame c s; rw [h]
@[simp] theorem enqueue_localInitialTSN (c : Chunk) (s : State) : (s.enqueue c).localInitialTSN = s.localInitialTSN := by obtain ⟨_, _, _, _, h⟩ := enqueue_frame c s; rw [h]
@[simp] theorem enqueue_lastReceivedTSN (c : Chunk) (s : State) : (s.enqueue c).lastReceivedTSN = s.lastReceivedTSN := by obtain ⟨_, _, _, _, h⟩ := enqueue_frame c s; rw [h]
@[simp] theorem enqueue_lastReceivedTSNValid (c : Chunk) (s : State) : (s.enqueue c).lastReceivedTSNValid = s.lastReceivedTSNValid := by obtain ⟨_, _, _, _, h⟩ := enqueue_frame c s; rw [h]
@[simp] theorem enqueue_state (c : Chunk) (s : State) : (s.enqueue c).state = s.state := by obtain ⟨_, _, _, _, h⟩ := enqueue_frame c s; rw [h]
@[simp] theorem enqueue_wrapper (c : Chunk) (s : State) : (s.enqueue c).wrapper = s.wrapper := by obtain ⟨_, _, _, _, h⟩ := enqueue_frame c s; rw [h]
@[simp] theorem enqueue_initRetransmissions (c : Chunk) (s : State) : (s.enqueue c).initRetransmissions = s.initRetransmissions := by obtain ⟨_, _, _, _, h⟩ := enqueue_frame c s; rw [h]
@[simp] theorem enqueue_timers (c : Chunk) (s : State) : (s.enqueue c).timers = s.timers := by obtain ⟨_, _, _, _, h⟩ := enqueue_frame c s; rw [h]
@[simp] theorem enqueue_pendingAcknowledge (c : Chunk) (s : State) : (s.enqueue c).pendingAcknowledge = s.pendingAcknowledge := by obtain ⟨_, _, _, _, h⟩ := enqueue_frame c s; rw [h]
@[simp] theorem enqueue_pendingAcknowledgeTimeout (c : Chunk) (s : State) : (s.enqueue c).pendingAcknowledgeTimeout = s.pendingAcknowledgeTimeout := by obtain ⟨_, _, _, _, h⟩ := enqueue_frame c s; rw [h]
@[simp] theorem enqueue_terminated (c : Chunk) (s : State) : (s.enqueue c).terminated = s.terminated := by obtain ⟨_, _, _, _, h⟩ := enqueue_frame c s; rw [h]
@[simp] theorem enqueue_peerCookie (c : Chunk) (s : State) : (s.enqueue c).peerCookie = s.peerCookie := by obtain ⟨_, _, _, _, h⟩ := enqueue_frame c s; rw [h]
@[simp] theorem enqueue_receivedTSNs (c : Chunk) (s : State) : (s.enqueue c).receivedTSNs = s.receivedTSNs := by obtain ⟨_, _, _, _, h⟩ := enqueue_frame c s; rw [h]
@[simp] theorem enqueue_ingress (c : Chunk) (s : State) : (s.enqueue c).ingress = s.ingress := by obtain ⟨_, _, _, _, h⟩ := enqueue_frame c s; rw [h]
@[simp] theorem enqueue_tx (c : Chunk) (s : State) : (s.enqueue c).tx = s.tx := by obtain ⟨_, _, _, _, h⟩ := enqueue_frame c s; rw [h]
@[simp] theorem enqueue_wp (c : Chunk) (s : State) : (s.enqueue c).wp = s.wp := by obtain ⟨_, _, _, _, h⟩ := enqueue_frame c s; rw [h]
@[simp] theorem enqueue_port (c : Chunk) (s : State) : (s.enqueue c).port = s.port := by obtain ⟨_, _, _, _, h⟩ := enqueue_frame c s; rw [h]
@[simp] theorem enqueue_results (c : Chunk) (s : State) : (s.enqueue c).results = s.results := by obtain ⟨_, _, _, _, h⟩ := enqueue_frame c s; rw [h]
@[simp] theorem enqueue_draws (c : Chunk) (s : State) : (s.enqueue c).draws = s.draws := by obtain ⟨_, _, _, _, h⟩ := enqueue_frame c s; rw [h]
@[simp] theorem enqueue_freeDraws (c : Chunk) (s : State) : (s.enqueue c).freeDraws = s.freeDraws := by obtain ⟨_, _, _, _, h⟩ := enqueue_frame c s; rw [h]

/-! ## Draws -/

/-- Everything the two draws can change (46 R313). -/
theorem drawLocalIdentity_frame (s : State) :
    ∃ tag tsn ds n, s.drawLocalIdentity =
      { s with localVerificationTag := tag, localInitialTSN := tsn, draws := ds, freeDraws := n } := by
  unfold drawLocalIdentity drawTag drawTSN
  cases s.draws.dropWhile (fun v => v == 0) with
  | nil => exact ⟨_, _, _, _, rfl⟩
  | cons v rest => cases rest <;> exact ⟨_, _, _, _, rfl⟩

/-! ## drawLocalIdentity -/

@[simp] theorem drawLocalIdentity_params (s : State) : (s.drawLocalIdentity).params = s.params := by obtain ⟨_, _, _, _, h⟩ := drawLocalIdentity_frame s; rw [h]
@[simp] theorem drawLocalIdentity_localPort (s : State) : (s.drawLocalIdentity).localPort = s.localPort := by obtain ⟨_, _, _, _, h⟩ := drawLocalIdentity_frame s; rw [h]
@[simp] theorem drawLocalIdentity_remotePort (s : State) : (s.drawLocalIdentity).remotePort = s.remotePort := by obtain ⟨_, _, _, _, h⟩ := drawLocalIdentity_frame s; rw [h]
@[simp] theorem drawLocalIdentity_remoteVerificationTag (s : State) : (s.drawLocalIdentity).remoteVerificationTag = s.remoteVerificationTag := by obtain ⟨_, _, _, _, h⟩ := drawLocalIdentity_frame s; rw [h]
@[simp] theorem drawLocalIdentity_lastReceivedTSN (s : State) : (s.drawLocalIdentity).lastReceivedTSN = s.lastReceivedTSN := by obtain ⟨_, _, _, _, h⟩ := drawLocalIdentity_frame s; rw [h]
@[simp] theorem drawLocalIdentity_lastReceivedTSNValid (s : State) : (s.drawLocalIdentity).lastReceivedTSNValid = s.lastReceivedTSNValid := by obtain ⟨_, _, _, _, h⟩ := drawLocalIdentity_frame s; rw [h]
@[simp] theorem drawLocalIdentity_state (s : State) : (s.drawLocalIdentity).state = s.state := by obtain ⟨_, _, _, _, h⟩ := drawLocalIdentity_frame s; rw [h]
@[simp] theorem drawLocalIdentity_wrapper (s : State) : (s.drawLocalIdentity).wrapper = s.wrapper := by obtain ⟨_, _, _, _, h⟩ := drawLocalIdentity_frame s; rw [h]
@[simp] theorem drawLocalIdentity_initRetransmissions (s : State) : (s.drawLocalIdentity).initRetransmissions = s.initRetransmissions := by obtain ⟨_, _, _, _, h⟩ := drawLocalIdentity_frame s; rw [h]
@[simp] theorem drawLocalIdentity_timers (s : State) : (s.drawLocalIdentity).timers = s.timers := by obtain ⟨_, _, _, _, h⟩ := drawLocalIdentity_frame s; rw [h]
@[simp] theorem drawLocalIdentity_pendingAcknowledge (s : State) : (s.drawLocalIdentity).pendingAcknowledge = s.pendingAcknowledge := by obtain ⟨_, _, _, _, h⟩ := drawLocalIdentity_frame s; rw [h]
@[simp] theorem drawLocalIdentity_pendingAcknowledgeTimeout (s : State) : (s.drawLocalIdentity).pendingAcknowledgeTimeout = s.pendingAcknowledgeTimeout := by obtain ⟨_, _, _, _, h⟩ := drawLocalIdentity_frame s; rw [h]
@[simp] theorem drawLocalIdentity_pendingData (s : State) : (s.drawLocalIdentity).pendingData = s.pendingData := by obtain ⟨_, _, _, _, h⟩ := drawLocalIdentity_frame s; rw [h]
@[simp] theorem drawLocalIdentity_terminated (s : State) : (s.drawLocalIdentity).terminated = s.terminated := by obtain ⟨_, _, _, _, h⟩ := drawLocalIdentity_frame s; rw [h]
@[simp] theorem drawLocalIdentity_peerCookie (s : State) : (s.drawLocalIdentity).peerCookie = s.peerCookie := by obtain ⟨_, _, _, _, h⟩ := drawLocalIdentity_frame s; rw [h]
@[simp] theorem drawLocalIdentity_queue (s : State) : (s.drawLocalIdentity).queue = s.queue := by obtain ⟨_, _, _, _, h⟩ := drawLocalIdentity_frame s; rw [h]
@[simp] theorem drawLocalIdentity_receivedTSNs (s : State) : (s.drawLocalIdentity).receivedTSNs = s.receivedTSNs := by obtain ⟨_, _, _, _, h⟩ := drawLocalIdentity_frame s; rw [h]
@[simp] theorem drawLocalIdentity_events (s : State) : (s.drawLocalIdentity).events = s.events := by obtain ⟨_, _, _, _, h⟩ := drawLocalIdentity_frame s; rw [h]
@[simp] theorem drawLocalIdentity_log (s : State) : (s.drawLocalIdentity).log = s.log := by obtain ⟨_, _, _, _, h⟩ := drawLocalIdentity_frame s; rw [h]
@[simp] theorem drawLocalIdentity_ingress (s : State) : (s.drawLocalIdentity).ingress = s.ingress := by obtain ⟨_, _, _, _, h⟩ := drawLocalIdentity_frame s; rw [h]
@[simp] theorem drawLocalIdentity_tx (s : State) : (s.drawLocalIdentity).tx = s.tx := by obtain ⟨_, _, _, _, h⟩ := drawLocalIdentity_frame s; rw [h]
@[simp] theorem drawLocalIdentity_wp (s : State) : (s.drawLocalIdentity).wp = s.wp := by obtain ⟨_, _, _, _, h⟩ := drawLocalIdentity_frame s; rw [h]
@[simp] theorem drawLocalIdentity_port (s : State) : (s.drawLocalIdentity).port = s.port := by obtain ⟨_, _, _, _, h⟩ := drawLocalIdentity_frame s; rw [h]
@[simp] theorem drawLocalIdentity_results (s : State) : (s.drawLocalIdentity).results = s.results := by obtain ⟨_, _, _, _, h⟩ := drawLocalIdentity_frame s; rw [h]

/-- The tag a draw gives is never 0 (46 R313). -/
theorem drawTag_ne_zero (s : State) : s.drawTag.1 ≠ 0 := by
  unfold drawTag
  cases h : s.draws.dropWhile (fun v => v == 0) with
  | nil =>
    intro hz
    have := congrArg BitVec.toNat hz
    simp only [freeTag, BitVec.toNat_ofNat] at this
    have hlt := (Config.freeTagIndex s.freeDraws).isLt
    simp at this
    omega
  | cons v rest =>
    have := List.head?_dropWhile_not (fun v : U32 => v == 0) s.draws
    rw [h] at this
    simpa using this

end Sys2Proof.Machine.State
end

