-- ==== Sys2Proof/Laws/Ops.lean ====
section
/-! SUPPORT. For each shared operation, what it can do, said once: equations for cancelling a timer and drawing, frames
for `Acknowledge`, `Process` and the end of a packet, and what a chunk, a parameter and a fire answer. -/

namespace Sys2Proof.Machine

namespace State

/-! ## Timers and draws -/

theorem cancel_init (s : State) : s.cancel .init = { s with
    timers := { s.timers with init := .idle }
    events := s.events ++ (if s.timers.init = .idle then [] else [.timerCancel .init]) } := by
  obtain ⟨_, _, _, _, _, _, _, _, _, _, _, ⟨i, c, k⟩, _⟩ := s
  cases i <;> simp [cancel, timer, setTimer, emit, Slot.isArmed]

theorem cancel_cookie (s : State) : s.cancel .cookie = { s with
    timers := { s.timers with cookie := .idle }
    events := s.events ++ (if s.timers.cookie = .idle then [] else [.timerCancel .cookie]) } := by
  obtain ⟨_, _, _, _, _, _, _, _, _, _, _, ⟨i, c, k⟩, _⟩ := s
  cases c <;> simp [cancel, timer, setTimer, emit, Slot.isArmed]

theorem cancel_sack (s : State) : s.cancel .sack = { s with
    timers := { s.timers with sack := .idle }
    events := s.events ++ (if s.timers.sack = .idle then [] else [.timerCancel .sack]) } := by
  obtain ⟨_, _, _, _, _, _, _, _, _, _, _, ⟨i, c, k⟩, _⟩ := s
  cases k <;> simp [cancel, timer, setTimer, emit, Slot.isArmed]

/-- The two draws where the random source gives zeros, then a nonzero value, then another. -/
theorem drawLocalIdentity_injected (s : State) (k : Nat) (tag tsn : U32) (rest : List U32) (ht : tag ≠ 0)
    (h : s.draws = List.replicate k 0 ++ tag :: tsn :: rest) :
    s.drawLocalIdentity = { s with localVerificationTag := tag, localInitialTSN := tsn, draws := rest } := by
  have hd : s.draws.dropWhile (fun v => v == 0) = tag :: tsn :: rest := by
    rw [h]
    clear h
    induction k with
    | zero => rw [List.replicate_zero, List.nil_append, List.dropWhile_cons_of_neg (by simpa using ht)]
    | succ k ih => rw [List.replicate_succ, List.cons_append, List.dropWhile_cons_of_pos (by rfl), ih]
  have hd' : s.drawTag = (tag, { s with draws := tsn :: rest }) := by unfold drawTag; rw [hd]
  unfold drawLocalIdentity
  rw [hd']
  rfl

theorem drawLocalIdentity_tag_ne_zero (s : State) : s.drawLocalIdentity.localVerificationTag ≠ 0 := by
  have h := drawTag_ne_zero s
  unfold drawLocalIdentity
  exact h

/-! ## Acknowledge -/

/-- What the part of `Acknowledge` after the walk can change. -/
theorem foldl_takeError_goOn (es : List LogEntry) : ∀ s : State,
    es.foldl (fun s e => s.takeError e .goOn) s = { s with log := s.log ++ es } := by
  induction es with
  | nil => intro s; simp
  | cons e es ih => intro s; rw [List.foldl_cons, ih]; simp [takeError, raise]

/-- Everything `Acknowledge` can change. -/
theorem acknowledge_frame (s : State) : ∃ l v m t a pd q ev lg, s.acknowledge =
    { s with lastReceivedTSN := l, lastReceivedTSNValid := v, receivedTSNs := m, timers := t, pendingAcknowledge := a,
             pendingData := pd, queue := q, events := ev, log := lg } := by
  have key : ∀ k : AckWalk, ∃ l v m t a pd q ev lg, (s.reportWalk k).endAcknowledge =
      { s with lastReceivedTSN := l, lastReceivedTSNValid := v, receivedTSNs := m, timers := t,
               pendingAcknowledge := a, pendingData := pd, queue := q, events := ev, log := lg } := by
    intro k
    unfold endAcknowledge reportWalk
    simp only [foldl_takeError_goOn, cancel_sack]
    obtain ⟨q, pd, ev, lg, h⟩ := enqueue_frame (buildSack s.wrapper s.params.localArwnd k) { s with
      lastReceivedTSN := k.l
      lastReceivedTSNValid := true
      receivedTSNs := s.receivedTSNs.filter fun t => decide (k.l.toNat < t.toNat)
      log := s.log ++ gapOverflows k.l k.gaps }
    rw [h]
    exact ⟨_, _, _, _, _, _, _, _, _, rfl⟩
  unfold acknowledge
  split
  · exact key _
  · split
    · unfold endAcknowledge; rw [cancel_sack]; exact ⟨_, _, _, _, _, _, _, _, _, rfl⟩
    · exact key _

@[simp] theorem acknowledge_params (s : State) : s.acknowledge.params = s.params := by
  obtain ⟨_, _, _, _, _, _, _, _, _, h⟩ := acknowledge_frame s; rw [h]
@[simp] theorem acknowledge_localPort (s : State) : s.acknowledge.localPort = s.localPort := by
  obtain ⟨_, _, _, _, _, _, _, _, _, h⟩ := acknowledge_frame s; rw [h]
@[simp] theorem acknowledge_remotePort (s : State) : s.acknowledge.remotePort = s.remotePort := by
  obtain ⟨_, _, _, _, _, _, _, _, _, h⟩ := acknowledge_frame s; rw [h]
@[simp] theorem acknowledge_localVerificationTag (s : State) : s.acknowledge.localVerificationTag = s.localVerificationTag := by
  obtain ⟨_, _, _, _, _, _, _, _, _, h⟩ := acknowledge_frame s; rw [h]
@[simp] theorem acknowledge_remoteVerificationTag (s : State) : s.acknowledge.remoteVerificationTag = s.remoteVerificationTag := by
  obtain ⟨_, _, _, _, _, _, _, _, _, h⟩ := acknowledge_frame s; rw [h]
@[simp] theorem acknowledge_localInitialTSN (s : State) : s.acknowledge.localInitialTSN = s.localInitialTSN := by
  obtain ⟨_, _, _, _, _, _, _, _, _, h⟩ := acknowledge_frame s; rw [h]
@[simp] theorem acknowledge_state (s : State) : s.acknowledge.state = s.state := by
  obtain ⟨_, _, _, _, _, _, _, _, _, h⟩ := acknowledge_frame s; rw [h]
@[simp] theorem acknowledge_wrapper (s : State) : s.acknowledge.wrapper = s.wrapper := by
  obtain ⟨_, _, _, _, _, _, _, _, _, h⟩ := acknowledge_frame s; rw [h]
@[simp] theorem acknowledge_initRetransmissions (s : State) : s.acknowledge.initRetransmissions = s.initRetransmissions := by
  obtain ⟨_, _, _, _, _, _, _, _, _, h⟩ := acknowledge_frame s; rw [h]
@[simp] theorem acknowledge_pendingAcknowledgeTimeout (s : State) : s.acknowledge.pendingAcknowledgeTimeout = s.pendingAcknowledgeTimeout := by
  obtain ⟨_, _, _, _, _, _, _, _, _, h⟩ := acknowledge_frame s; rw [h]
@[simp] theorem acknowledge_terminated (s : State) : s.acknowledge.terminated = s.terminated := by
  obtain ⟨_, _, _, _, _, _, _, _, _, h⟩ := acknowledge_frame s; rw [h]
@[simp] theorem acknowledge_peerCookie (s : State) : s.acknowledge.peerCookie = s.peerCookie := by
  obtain ⟨_, _, _, _, _, _, _, _, _, h⟩ := acknowledge_frame s; rw [h]
@[simp] theorem acknowledge_ingress (s : State) : s.acknowledge.ingress = s.ingress := by
  obtain ⟨_, _, _, _, _, _, _, _, _, h⟩ := acknowledge_frame s; rw [h]
@[simp] theorem acknowledge_tx (s : State) : s.acknowledge.tx = s.tx := by
  obtain ⟨_, _, _, _, _, _, _, _, _, h⟩ := acknowledge_frame s; rw [h]
@[simp] theorem acknowledge_wp (s : State) : s.acknowledge.wp = s.wp := by
  obtain ⟨_, _, _, _, _, _, _, _, _, h⟩ := acknowledge_frame s; rw [h]
@[simp] theorem acknowledge_port (s : State) : s.acknowledge.port = s.port := by
  obtain ⟨_, _, _, _, _, _, _, _, _, h⟩ := acknowledge_frame s; rw [h]
@[simp] theorem acknowledge_results (s : State) : s.acknowledge.results = s.results := by
  obtain ⟨_, _, _, _, _, _, _, _, _, h⟩ := acknowledge_frame s; rw [h]
@[simp] theorem acknowledge_draws (s : State) : s.acknowledge.draws = s.draws := by
  obtain ⟨_, _, _, _, _, _, _, _, _, h⟩ := acknowledge_frame s; rw [h]
@[simp] theorem acknowledge_freeDraws (s : State) : s.acknowledge.freeDraws = s.freeDraws := by
  obtain ⟨_, _, _, _, _, _, _, _, _, h⟩ := acknowledge_frame s; rw [h]

end State

/-! ## Process -/

/-- Everything `Process` can change. -/
theorem process_frame (c : Chunk) (s : State) : ∃ lt rt it st w ir t a at' pd ck q m ev lg dr fd, process c s =
    { s with localVerificationTag := lt, remoteVerificationTag := rt, localInitialTSN := it, state := st, wrapper := w,
             initRetransmissions := ir, timers := t, pendingAcknowledge := a, pendingAcknowledgeTimeout := at',
             pendingData := pd, peerCookie := ck, queue := q, receivedTSNs := m, events := ev, log := lg,
             draws := dr, freeDraws := fd } := by
  have ign : ∃ lt rt it st w ir t a at' pd ck q m ev lg dr fd, ignoreChunk c s =
      { s with localVerificationTag := lt, remoteVerificationTag := rt, localInitialTSN := it, state := st,
               wrapper := w, initRetransmissions := ir, timers := t, pendingAcknowledge := a,
               pendingAcknowledgeTimeout := at', pendingData := pd, peerCookie := ck, queue := q,
               receivedTSNs := m, events := ev, log := lg, draws := dr, freeDraws := fd } :=
    ⟨_, _, _, _, _, _, _, _, _, _, _, _, _, _, _, _, _, rfl⟩
  unfold process
  split
  · split
    · rename_i r _ _
      unfold processInit
      obtain ⟨a, b, d, e, h⟩ := State.drawLocalIdentity_frame { s with remoteVerificationTag := r.initiateTag }
      simp only []
      rw [h]
      obtain ⟨q, pd, ev, lg, h⟩ := State.enqueue_frame (buildInitAck { s with
        remoteVerificationTag := r.initiateTag
        localVerificationTag := a
        localInitialTSN := b
        draws := d
        freeDraws := e }) { s with
        remoteVerificationTag := r.initiateTag
        localVerificationTag := a
        localInitialTSN := b
        draws := d
        freeDraws := e }
      rw [h]
      exact ⟨_, _, _, _, _, _, _, _, _, _, _, _, _, _, _, _, _, rfl⟩
    · exact ign
  · split
    · unfold processCookieEcho
      obtain ⟨q, pd, ev, lg, h⟩ := State.enqueue_frame (.cookieAck 0) s
      rw [h]
      exact ⟨_, _, _, _, _, _, _, _, _, _, _, _, _, _, _, _, _, rfl⟩
    · exact ign
  · split
    · split
      · exact ign
      · unfold processInitAck
        rename_i r _ _ cookie
        simp only [State.cancel_init]
        obtain ⟨q, pd, ev, lg, h⟩ := State.enqueue_frame (.cookieEcho 0 cookie) { s with
          timers := { s.timers with init := .idle }
          events := s.events ++ (if s.timers.init = .idle then [] else [.timerCancel .init])
          remoteVerificationTag := r.initiateTag
          peerCookie := cookie
          initRetransmissions := 0 }
        rw [h]
        exact ⟨_, _, _, _, _, _, _, _, _, _, _, _, _, _, _, _, _, rfl⟩
    · exact ign
  · split
    · unfold processCookieAck
      rw [State.cancel_cookie]
      exact ⟨_, _, _, _, _, _, _, _, _, _, _, _, _, _, _, _, _, rfl⟩
    · exact ign
  · split
    · exact ⟨_, _, _, _, _, _, _, _, _, _, _, _, _, _, _, _, _, rfl⟩
    · exact ign
  all_goals exact ign

@[simp] theorem process_params (c : Chunk) (s : State) : (process c s).params = s.params := by
  obtain ⟨_, _, _, _, _, _, _, _, _, _, _, _, _, _, _, _, _, h⟩ := process_frame c s; rw [h]
@[simp] theorem process_localPort (c : Chunk) (s : State) : (process c s).localPort = s.localPort := by
  obtain ⟨_, _, _, _, _, _, _, _, _, _, _, _, _, _, _, _, _, h⟩ := process_frame c s; rw [h]
@[simp] theorem process_remotePort (c : Chunk) (s : State) : (process c s).remotePort = s.remotePort := by
  obtain ⟨_, _, _, _, _, _, _, _, _, _, _, _, _, _, _, _, _, h⟩ := process_frame c s; rw [h]
@[simp] theorem process_lastReceivedTSN (c : Chunk) (s : State) : (process c s).lastReceivedTSN = s.lastReceivedTSN := by
  obtain ⟨_, _, _, _, _, _, _, _, _, _, _, _, _, _, _, _, _, h⟩ := process_frame c s; rw [h]
@[simp] theorem process_lastReceivedTSNValid (c : Chunk) (s : State) : (process c s).lastReceivedTSNValid = s.lastReceivedTSNValid := by
  obtain ⟨_, _, _, _, _, _, _, _, _, _, _, _, _, _, _, _, _, h⟩ := process_frame c s; rw [h]
@[simp] theorem process_terminated (c : Chunk) (s : State) : (process c s).terminated = s.terminated := by
  obtain ⟨_, _, _, _, _, _, _, _, _, _, _, _, _, _, _, _, _, h⟩ := process_frame c s; rw [h]
@[simp] theorem process_ingress (c : Chunk) (s : State) : (process c s).ingress = s.ingress := by
  obtain ⟨_, _, _, _, _, _, _, _, _, _, _, _, _, _, _, _, _, h⟩ := process_frame c s; rw [h]
@[simp] theorem process_tx (c : Chunk) (s : State) : (process c s).tx = s.tx := by
  obtain ⟨_, _, _, _, _, _, _, _, _, _, _, _, _, _, _, _, _, h⟩ := process_frame c s; rw [h]
@[simp] theorem process_wp (c : Chunk) (s : State) : (process c s).wp = s.wp := by
  obtain ⟨_, _, _, _, _, _, _, _, _, _, _, _, _, _, _, _, _, h⟩ := process_frame c s; rw [h]
@[simp] theorem process_port (c : Chunk) (s : State) : (process c s).port = s.port := by
  obtain ⟨_, _, _, _, _, _, _, _, _, _, _, _, _, _, _, _, _, h⟩ := process_frame c s; rw [h]
@[simp] theorem process_results (c : Chunk) (s : State) : (process c s).results = s.results := by
  obtain ⟨_, _, _, _, _, _, _, _, _, _, _, _, _, _, _, _, _, h⟩ := process_frame c s; rw [h]

/-! ## Chunks and parameters -/

theorem runChunk_record {s : State} {rx : Space} {pc : Nat} (h : s.ingress = some ⟨rx, pc, none⟩) (t : Byte)
    {c : RawChunk} (hc : c.lengthUsable = true) (r : Chunk) :
    runChunk t c (some r) s = .next (process r { s with ingress := some ⟨rx, nextChunkAt rx pc c.length, none⟩ }) := by
  simp [runChunk, h, hc, State.resumeAt]

theorem runChunk_malformed {s : State} {rx : Space} {pc : Nat} (h : s.ingress = some ⟨rx, pc, none⟩) (t : Byte)
    {c : RawChunk} (hc : c.lengthUsable = true) :
    runChunk t c none s = .next { s with
      log := s.log ++ [.chunkBodyMalformed pc t], ingress := some ⟨rx, nextChunkAt rx pc c.length, none⟩ } := by
  simp [runChunk, h, hc, State.takeError, State.raise, State.resumeAt]

theorem runChunk_unusable {s : State} {rx : Space} {pc : Nat} (h : s.ingress = some ⟨rx, pc, none⟩) (t : Byte)
    {c : RawChunk} (hc : c.lengthUsable = false) (rec : Option Chunk) :
    runChunk t c rec s = .next { s with
      log := s.log ++ [.chunkLengthInvalid pc t c.length], ingress := some ⟨rx, rx.size, none⟩ } := by
  simp [runChunk, h, hc, State.takeError, State.raise, State.dropRest]

theorem openChunk_start {s : State} {rx : Space} {pc : Nat} (h : s.ingress = some ⟨rx, pc, none⟩) (t : Byte)
    {c : RawChunk} (hc : c.lengthUsable = true) (b : Building) (tail : List Byte) :
    openChunk t c (some (b, tail)) s =
      .next (continueParams rx pc ⟨b, Reader.ofBytes tail, nextChunkAt rx pc c.length⟩ s) := by
  simp [openChunk, h, hc]

theorem openChunk_malformed {s : State} {rx : Space} {pc : Nat} (h : s.ingress = some ⟨rx, pc, none⟩) (t : Byte)
    {c : RawChunk} (hc : c.lengthUsable = true) :
    openChunk t c none s = .next { s with
      log := s.log ++ [.chunkBodyMalformed pc t], ingress := some ⟨rx, nextChunkAt rx pc c.length, none⟩ } := by
  simp [openChunk, h, hc, State.takeError, State.raise, State.resumeAt]

theorem openChunk_unusable {s : State} {rx : Space} {pc : Nat} (h : s.ingress = some ⟨rx, pc, none⟩) (t : Byte)
    {c : RawChunk} (hc : c.lengthUsable = false) (start : Option (Building × List Byte)) :
    openChunk t c start s = .next { s with
      log := s.log ++ [.chunkLengthInvalid pc t c.length], ingress := some ⟨rx, rx.size, none⟩ } := by
  simp [openChunk, h, hc, State.takeError, State.raise, State.dropRest]

theorem continueParams_more {q : ParamList} (h : q.reader.left ≠ 0) (rx : Space) (pc : Nat) (s : State) :
    continueParams rx pc q s = { s with ingress := some ⟨rx, pc, some q⟩ } := by simp [continueParams, h]

theorem continueParams_done {q : ParamList} (h : q.reader.left = 0) {rx : Space} {pc : Nat} {s : State}
    {g : Ingress} (hg : s.ingress = some g) (hr : g.rx = rx) {r : Chunk} (hb : q.building.close = some r) :
    continueParams rx pc q s = process r { s with ingress := some ⟨rx, q.next, none⟩ } := by
  subst hr
  simp [continueParams, closeParams, h, hb, State.resumeAt, hg]

/-- A HEARTBEAT whose one parameter is missing has failed. -/
theorem continueParams_missing {q : ParamList} (h : q.reader.left = 0) {rx : Space} {pc : Nat} {s : State}
    {g : Ingress} (hg : s.ingress = some g) (hr : g.rx = rx) (hb : q.building.close = none) :
    continueParams rx pc q s = { s with
      log := s.log ++ [.chunkBodyMalformed pc (q.building.typeCode s.params.codes)], ingress := some ⟨rx, q.next, none⟩ } := by
  subst hr
  simp [continueParams, closeParams, h, hb, State.takeError, State.raise, State.resumeAt, hg]

theorem runParam_unusable {s : State} {rx : Space} {pc : Nat} {q : ParamList} (h : s.ingress = some ⟨rx, pc, some q⟩)
    {p : RawParam} (hp : p.lengthUsable = false) (store : Building → Option Building) :
    runParam p store s = .next { s with
      log := s.log ++ [.chunkBodyMalformed pc (q.building.typeCode s.params.codes)], ingress := some ⟨rx, q.next, none⟩ } := by
  simp [runParam, h, hp, State.takeError, State.raise, State.resumeAt]

theorem runParam_refused {s : State} {rx : Space} {pc : Nat} {q : ParamList} (h : s.ingress = some ⟨rx, pc, some q⟩)
    {p : RawParam} {store : Building → Option Building} (hs : store q.building = none) :
    runParam p store s = .next { s with
      log := s.log ++ [.chunkBodyMalformed pc (q.building.typeCode s.params.codes)], ingress := some ⟨rx, q.next, none⟩ } := by
  cases hp : p.lengthUsable
  · exact runParam_unusable h hp store
  · simp [runParam, h, hp, hs, State.takeError, State.raise, State.resumeAt]

theorem runParam_stored {s : State} {rx : Space} {pc : Nat} {q : ParamList} (h : s.ingress = some ⟨rx, pc, some q⟩)
    {p : RawParam} (hp : p.lengthUsable = true) {store : Building → Option Building} {b : Building}
    (hs : store q.building = some b) (hl : 4 + p.value.length ≤ q.reader.left) :
    runParam p store s = .next (continueParams rx pc
      ⟨b, Reader.skipPad ⟨q.reader.p + (4 + p.value.length), q.reader.rest.drop (4 + p.value.length)⟩, q.next⟩ s) := by
  simp [runParam, h, hp, hs, Reader.skip, hl]

/-- A fire on an idle slot, in another state, in its own. -/
theorem fireTimer_cases {s : State} (h : s.ingress = none) (i : TimerId) (own : AssocState)
    (handler : State → State) :
    fireTimer i own handler s = .next
      (if (s.timer i).isArmed = false then s
       else if s.state = own then handler (s.setTimer i .idle)
       else (s.setTimer i .idle).raise (.timerIgnored i s.state)) := by
  unfold fireTimer betweenOperations
  cases hs : (s.timer i).isArmed <;> by_cases hw : s.state = own <;> simp [h, hw, State.takeError]

/-! ## A record keeps its kind, and is complete once one parameter could be stored in it -/

theorem keepUnrecognised_close {t : U16} {v : List Byte} {b b' : Building} (h : keepUnrecognised t v b = some b') :
    (∃ r, b'.close = some r) ∧ b'.kind = b.kind := by
  cases b <;> simp only [keepUnrecognised, Option.some.injEq, reduceCtorEq] at h
  all_goals subst h; exact ⟨⟨_, rfl⟩, rfl⟩

theorem storeIpv4_close {v : List Byte} {b b' : Building} (h : storeIpv4 v b = some b') :
    (∃ r, b'.close = some r) ∧ b'.kind = b.kind := by
  cases b <;> simp only [storeIpv4, Option.some.injEq, reduceCtorEq, Option.ite_none_right_eq_some] at h
  all_goals obtain ⟨-, rfl⟩ := h; exact ⟨⟨_, rfl⟩, rfl⟩

theorem storeIpv6_close {v : List Byte} {b b' : Building} (h : storeIpv6 v b = some b') :
    (∃ r, b'.close = some r) ∧ b'.kind = b.kind := by
  cases b <;> simp only [storeIpv6, Option.some.injEq, reduceCtorEq, Option.ite_none_right_eq_some] at h
  all_goals obtain ⟨-, rfl⟩ := h; exact ⟨⟨_, rfl⟩, rfl⟩

theorem storeHostName_close {v : List Byte} {b b' : Building} (h : storeHostName v b = some b') :
    (∃ r, b'.close = some r) ∧ b'.kind = b.kind := by
  cases b <;> simp only [storeHostName, Option.some.injEq, reduceCtorEq] at h
  all_goals subst h; exact ⟨⟨_, rfl⟩, rfl⟩

theorem storeSupportedExtensions_close {v : List Byte} {b b' : Building} (h : storeSupportedExtensions v b = some b') :
    (∃ r, b'.close = some r) ∧ b'.kind = b.kind := by
  cases b <;> simp only [storeSupportedExtensions, Option.some.injEq, reduceCtorEq] at h
  all_goals subst h; exact ⟨⟨_, rfl⟩, rfl⟩

theorem storeForwardTSNSupported_close {v : List Byte} {b b' : Building} (h : storeForwardTSNSupported v b = some b') :
    (∃ r, b'.close = some r) ∧ b'.kind = b.kind := by
  cases b <;> simp only [storeForwardTSNSupported, Option.some.injEq, reduceCtorEq, Option.ite_none_right_eq_some] at h
  all_goals obtain ⟨-, rfl⟩ := h; exact ⟨⟨_, rfl⟩, rfl⟩

theorem storeStateCookie_close {k : Codes} {v : List Byte} {b b' : Building} (h : storeStateCookie k v b = some b') :
    (∃ r, b'.close = some r) ∧ b'.kind = b.kind := by
  unfold storeStateCookie at h
  split at h
  · cases h; exact ⟨⟨_, rfl⟩, rfl⟩
  · exact keepUnrecognised_close h

theorem storeCookiePreservative_close {k : Codes} {v : List Byte} {b b' : Building} (h : storeCookiePreservative k v b = some b') :
    (∃ r, b'.close = some r) ∧ b'.kind = b.kind := by
  unfold storeCookiePreservative at h
  split at h
  · split at h
    · cases h; exact ⟨⟨_, rfl⟩, rfl⟩
    · cases h
  · exact keepUnrecognised_close h

theorem storeHeartbeatInfo_close {k : Codes} {v : List Byte} {b b' : Building} (h : storeHeartbeatInfo k v b = some b') :
    (∃ r, b'.close = some r) ∧ b'.kind = b.kind := by
  unfold storeHeartbeatInfo at h
  split at h
  · cases h; exact ⟨⟨_, rfl⟩, rfl⟩
  · cases h; exact ⟨⟨_, rfl⟩, rfl⟩
  · exact keepUnrecognised_close h

theorem storeParam_close {k : Codes} {t : U16} {v : List Byte} {b b' : Building} (h : storeParam k t v b = some b') :
    (∃ r, b'.close = some r) ∧ b'.kind = b.kind := by
  unfold storeParam at h
  split at h
  · exact storeHeartbeatInfo_close h
  · exact storeIpv4_close h
  · exact storeIpv6_close h
  · exact storeStateCookie_close h
  · exact storeCookiePreservative_close h
  · exact storeHostName_close h
  · exact storeSupportedExtensions_close h
  · exact storeForwardTSNSupported_close h
  · exact keepUnrecognised_close h

end Sys2Proof.Machine
end

