-- ==== Sys2Proof/Laws/Steps.lean ====
section
/-! SUPPORT. Everything one step can do, said once: the shapes of a chunk's and a parameter's next state, and the
cases of `step`. -/

namespace Sys2Proof.Machine

/-! ## Chunk instructions -/

/-- What a chunk instruction can do, `next` being the offset of the following chunk. -/
inductive ChunkDoes (t : Byte) (c : RawChunk) (rx : Space) (pc next : Nat) (s : State) : State → Prop
  | unusable : c.lengthUsable = false → ChunkDoes t c rx pc next s
      { s with log := s.log ++ [.chunkLengthInvalid pc t c.length], ingress := some ⟨rx, rx.size, none⟩ }
  | failed (t' : Byte) : c.lengthUsable = true → ChunkDoes t c rx pc next s (s.chunkFailed rx pc next t')
  | record (r : Chunk) : c.lengthUsable = true → ChunkDoes t c rx pc next s (process r (s.atChunk rx next))
  | opened (b : Building) (tail : List Byte) : c.lengthUsable = true → tail ≠ [] → b.typeCode s.params.codes = t →
      ChunkDoes t c rx pc next s { s with ingress := some ⟨rx, pc, some ⟨b, ⟨0, tail⟩, next⟩⟩ }

theorem runChunk_does {t : Byte} {c : RawChunk} {rec : Option Chunk} {s s' : State}
    (h : runChunk t c rec s = .next s') :
    ∃ rx pc, s.ingress = some ⟨rx, pc, none⟩ ∧ ChunkDoes t c rx pc (nextChunkAt rx pc c.length) s s' := by
  match hi : s.ingress with
  | none => simp [runChunk, hi] at h
  | some ⟨_, _, some _⟩ => simp [runChunk, hi] at h
  | some ⟨rx, pc, none⟩ =>
    refine ⟨rx, pc, rfl, ?_⟩
    cases hc : c.lengthUsable with
    | false =>
      rw [runChunk_unusable hi t hc] at h
      cases h
      exact .unusable hc
    | true =>
      cases rec with
      | none =>
        rw [runChunk_malformed hi t hc] at h
        cases h
        exact .failed t hc
      | some r =>
        rw [runChunk_record hi t hc] at h
        cases h
        exact .record r hc

theorem openChunk_does {t : Byte} {c : RawChunk} {start : Option (Building × List Byte)} {s s' : State}
    (ht : ∀ b tail, start = some (b, tail) → b.typeCode s.params.codes = t) (h : openChunk t c start s = .next s') :
    ∃ rx pc, s.ingress = some ⟨rx, pc, none⟩ ∧ ChunkDoes t c rx pc (nextChunkAt rx pc c.length) s s' := by
  match hi : s.ingress with
  | none => simp [openChunk, hi] at h
  | some ⟨_, _, some _⟩ => simp [openChunk, hi] at h
  | some ⟨rx, pc, none⟩ =>
    refine ⟨rx, pc, rfl, ?_⟩
    cases hc : c.lengthUsable with
    | false =>
      rw [openChunk_unusable hi t hc] at h
      cases h
      exact .unusable hc
    | true =>
      match start with
      | none =>
        rw [openChunk_malformed hi t hc] at h
        cases h
        exact .failed t hc
      | some (b, tail) =>
        rw [openChunk_start hi t hc] at h
        cases h
        by_cases hl : tail = []
        · subst hl
          cases hb : b.close with
          | some r =>
            rw [continueParams_done (q := ⟨b, Reader.ofBytes [], _⟩) rfl hi rfl hb]
            exact .record r hc
          | none =>
            rw [continueParams_missing (q := ⟨b, Reader.ofBytes [], _⟩) rfl hi rfl hb]
            exact .failed (b.typeCode s.params.codes) hc
        · rw [continueParams_more (by simp [Reader.ofBytes, Reader.left, hl])]
          exact .opened b tail hc hl (ht b tail rfl)

theorem openInit_kind {k : Codes} {f : Byte} {body : List Byte} {b : Building} {tail : List Byte}
    (h : openInit f body = some (b, tail)) : b.typeCode k = k.chunkType .init := by
  simp only [openInit, Option.map_eq_some_iff, Prod.mk.injEq] at h
  obtain ⟨_, _, rfl, _⟩ := h
  rfl

theorem openInitAck_kind {k : Codes} {f : Byte} {body : List Byte} {b : Building} {tail : List Byte}
    (h : openInitAck f body = some (b, tail)) : b.typeCode k = k.chunkType .initAck := by
  simp only [openInitAck, Option.map_eq_some_iff, Prod.mk.injEq] at h
  obtain ⟨_, _, rfl, _⟩ := h
  rfl

theorem openHeartbeat_kind {k : Codes} {f : Byte} {body : List Byte} {b : Building} {tail : List Byte}
    (h : openHeartbeat f body = some (b, tail)) : b.typeCode k = k.chunkType .heartbeat := by
  simp only [openHeartbeat, Option.ite_none_left_eq_some, Option.some.injEq, Prod.mk.injEq] at h
  obtain ⟨_, rfl, _⟩ := h
  rfl

theorem openHeartbeatAck_kind {k : Codes} {f : Byte} {body : List Byte} {b : Building} {tail : List Byte}
    (h : openHeartbeatAck f body = some (b, tail)) : b.typeCode k = k.chunkType .heartbeatAck := by
  simp only [openHeartbeatAck, Option.ite_none_left_eq_some, Option.some.injEq, Prod.mk.injEq] at h
  obtain ⟨_, rfl, _⟩ := h
  rfl

theorem exec_chunk_does {i : Instr} {t : Byte} {c : RawChunk} {s s' : State}
    (ho : i.chunkOperands s.params.codes = some (t, c)) (h : exec i s = .next s') :
    ∃ rx pc, s.ingress = some ⟨rx, pc, none⟩ ∧ ChunkDoes t c rx pc (nextChunkAt rx pc c.length) s s' := by
  cases i <;> simp only [Instr.chunkOperands, Option.some.injEq, Prod.mk.injEq, reduceCtorEq] at ho
  all_goals obtain ⟨rfl, rfl⟩ := ho
  case init c => exact openChunk_does (fun b tail e => openInit_kind e) h
  case initAck c => exact openChunk_does (fun b tail e => openInitAck_kind e) h
  case heartbeat c => exact openChunk_does (fun b tail e => openHeartbeat_kind e) h
  case heartbeatAck c => exact openChunk_does (fun b tail e => openHeartbeatAck_kind e) h
  all_goals
    simp only [exec, execData, execSack, execAbortChunk, execShutdown, execShutdownAck, execError, execCookieEcho,
      execCookieAck, execShutdownComplete, execReConfig, execPadding, execForwardTSN, execUnknown] at h
    exact runChunk_does h

/-! ## Parameter instructions -/

/-- What a parameter instruction can do, `q` being the open list. -/
inductive ParamDoes (rx : Space) (pc : Nat) (q : ParamList) (s : State) : State → Prop
  | failed (t : Byte) : ParamDoes rx pc q s (s.chunkFailed rx pc q.next t)
  | record (b : Building) (r : Chunk) : b.close = some r → b.kind = q.building.kind →
      ParamDoes rx pc q s (process r (s.atChunk rx q.next))
  | more (b : Building) (rd : Reader) : b.kind = q.building.kind → rd.left ≠ 0 → rd.p % 4 = 0 →
      rd.left < q.reader.left →
      ParamDoes rx pc q s { s with ingress := some ⟨rx, pc, some ⟨b, rd, q.next⟩⟩ }

theorem closeParams_does {rx : Space} {pc : Nat} {q : ParamList} {s : State} {g : Ingress} (hi : s.ingress = some g)
    (hr : g.rx = rx) : ParamDoes rx pc q s (closeParams pc q s) := by
  subst hr
  unfold closeParams
  split
  · have : s.resumeAt q.next = s.atChunk g.rx q.next := by simp [State.resumeAt, State.atChunk, hi]
    rw [this]
    exact .record q.building _ ‹_› rfl
  · have : s.takeError (.chunkBodyMalformed pc (q.building.typeCode s.params.codes)) (.skipTo q.next)
        = s.chunkFailed g.rx pc q.next (q.building.typeCode s.params.codes) := by
      simp [State.takeError, State.raise, State.resumeAt, State.chunkFailed, hi]
    rw [this]
    exact .failed _

theorem runParam_does {p : RawParam} {store : Building → Option Building} {s s' : State}
    (hclose : ∀ b b' : Building, store b = some b' → (∃ r, b'.close = some r) ∧ b'.kind = b.kind)
    (h : runParam p store s = .next s') :
    ∃ rx pc q, s.ingress = some ⟨rx, pc, some q⟩ ∧ ParamDoes rx pc q s s' := by
  match hi : s.ingress with
  | none => simp [runParam, hi] at h
  | some ⟨_, _, none⟩ => simp [runParam, hi] at h
  | some ⟨rx, pc, some q⟩ =>
    refine ⟨rx, pc, q, rfl, ?_⟩
    cases hp : p.lengthUsable with
    | false =>
      rw [runParam_unusable hi hp] at h
      cases h
      exact .failed _
    | true =>
      cases hs : store q.building with
      | none =>
        rw [runParam_refused hi hs] at h
        cases h
        exact .failed _
      | some b =>
        by_cases hl : 4 + p.value.length ≤ q.reader.left
        · rw [runParam_stored hi hp hs hl] at h
          cases h
          generalize hrd : Reader.skipPad ⟨q.reader.p + (4 + p.value.length),
            q.reader.rest.drop (4 + p.value.length)⟩ = rd
          by_cases hz : rd.left = 0
          · obtain ⟨⟨r, hc⟩, hk⟩ := hclose _ _ hs
            rw [continueParams_done hz hi rfl hc]
            exact .record b r hc hk
          · rw [continueParams_more hz]
            refine .more b rd (hclose _ _ hs).2 hz ?_ ?_
            · subst hrd
              have := padlen_spec (q.reader.p + (4 + p.value.length))
              have := pad4_spec (q.reader.p + (4 + p.value.length))
              simp only [Reader.skipPad, Reader.left, List.length_drop] at hz ⊢
              omega
            · subst hrd
              simp only [Reader.skipPad, Reader.left, List.length_drop]
              simp only [Reader.left] at hl
              omega
        · simp [runParam, hi, hp, hs, Reader.skip, hl] at h

theorem exec_param_does {i : Instr} {t : U16} {p : RawParam} {s s' : State}
    (ho : i.paramOperands s.params.codes = some (t, p)) (h : exec i s = .next s') : ∃ rx pc q, s.ingress = some ⟨rx, pc, some q⟩ ∧ ParamDoes rx pc q s s' := by
  cases i <;> simp only [Instr.paramOperands, Option.some.injEq, Prod.mk.injEq, reduceCtorEq] at ho
  all_goals obtain ⟨rfl, rfl⟩ := ho
  case heartbeatInfo p => exact runParam_does (store := storeHeartbeatInfo s.params.codes p.value) (fun _ _ => storeHeartbeatInfo_close) h
  case ipv4Address p => exact runParam_does (store := storeIpv4 p.value) (fun _ _ => storeIpv4_close) h
  case ipv6Address p => exact runParam_does (store := storeIpv6 p.value) (fun _ _ => storeIpv6_close) h
  case stateCookie p => exact runParam_does (store := storeStateCookie s.params.codes p.value) (fun _ _ => storeStateCookie_close) h
  case cookiePreservative p =>
    exact runParam_does (store := storeCookiePreservative s.params.codes p.value) (fun _ _ => storeCookiePreservative_close) h
  case hostName p => exact runParam_does (store := storeHostName p.value) (fun _ _ => storeHostName_close) h
  case supportedExtensions p => exact runParam_does (store := storeSupportedExtensions p.value) (fun _ _ => storeSupportedExtensions_close) h
  case forwardTSNSupported p => exact runParam_does (store := storeForwardTSNSupported p.value) (fun _ _ => storeForwardTSNSupported_close) h
  case unrecognisedParameter t p => exact runParam_does (store := keepUnrecognised t p.value) (fun _ _ => keepUnrecognised_close) h

/-! ## The end of a packet -/

/-- Everything the end of a packet can change. -/
theorem finishPacket_frame (s : State) : ∃ l v m t a pd q ev lg, finishPacket s =
    { s with lastReceivedTSN := l, lastReceivedTSNValid := v, receivedTSNs := m, timers := t, pendingAcknowledge := a,
             pendingData := pd, queue := q, events := ev, log := lg, results := s.results ++ [.bool true],
             ingress := none } := by
  unfold finishPacket decideAck
  split
  · split
    · obtain ⟨l, v, m, t, a, pd, q, ev, lg, h⟩ := State.acknowledge_frame s
      rw [h]
      exact ⟨_, _, _, _, _, _, _, _, _, rfl⟩
    · split <;> exact ⟨_, _, _, _, _, _, _, _, _, rfl⟩
  · exact ⟨_, _, _, _, _, _, _, _, _, rfl⟩

/-! ## A step -/

/-- Everything a step can do. -/
inductive StepDoes (s : State) : State → Prop
  | idle : s.ingress = none → s.port = [] → StepDoes s s
  | command (c : PortCommand) (rest : List PortCommand) (i : Instr) (s' : State) : s.ingress = none →
      s.port = c :: rest → decodeCommand c = .ok i → exec i { s with port := rest } = .next s' → StepDoes s s'
  | chunk (rx : Space) (pc : Nat) (t : Byte) (c : RawChunk) (s' : State) : s.ingress = some ⟨rx, pc, none⟩ →
      pc + 4 ≤ rx.size → ChunkDoes t c rx pc (nextChunkAt rx pc c.length) s s' → StepDoes s s'
  | param (rx : Space) (pc : Nat) (q : ParamList) (s' : State) : s.ingress = some ⟨rx, pc, some q⟩ →
      ParamDoes rx pc q s s' → StepDoes s s'
  | packetEnd (rx : Space) (pc : Nat) : s.ingress = some ⟨rx, pc, none⟩ → rx.size < pc + 4 →
      StepDoes s (finishPacket s)

/-- Before Abort the invariant is R59 whole. -/
theorem OperationInv.rule59 {s : State} (h : OperationInv s) (ht : s.terminated = false) : Rule59 s :=
  ⟨h, h.trackerAbovePoint ht⟩

theorem step_does {s s' : State} (h : step s = .next s') : StepDoes s s' := by
  match hi : s.ingress with
  | none =>
    match hp : s.port with
    | [] =>
      simp only [step, fetch, hi, hp] at h
      cases h
      exact .idle hi hp
    | c :: rest =>
      have hf : fetch s = .code (.command c) { s with port := rest } := by simp [fetch, hi, hp]
      simp only [step, hf, decode] at h
      cases hd : decodeCommand c with
      | error e => simp [hd] at h
      | ok i =>
        simp only [hd] at h
        exact .command c rest i s' hi hp hd h
  | some ⟨rx, pc, some q⟩ =>
    simp only [step, fetch, hi] at h
    by_cases hz : q.reader.left = 0
    · rw [if_pos hz] at h
      cases h
      exact .param rx pc q _ hi (closeParams_does hi rfl)
    · rw [if_neg hz] at h
      by_cases h4 : q.reader.left < 4
      · rw [if_pos h4] at h
        cases h
        have : strayBytes pc q s = s.chunkFailed rx pc q.next (q.building.typeCode s.params.codes) := by
          simp [strayBytes, State.takeError, State.raise, State.resumeAt, State.chunkFailed, hi]
        rw [this]
        exact .param rx pc q _ hi (.failed _)
      · rw [if_neg h4] at h
        match hr : q.reader.rest with
        | t1 :: t0 :: l1 :: l0 :: tail =>
          simp only [hr, decode] at h
          obtain ⟨rx', pc', q', hi', hd⟩ := exec_param_does (selectParam_operands _ _ _) h
          rw [hi] at hi'
          cases hi'
          exact .param rx pc q _ hi hd
        | [] | [_] | [_, _] | [_, _, _] => simp [hr, decode] at h
  | some ⟨rx, pc, none⟩ =>
    simp only [step, fetch, hi] at h
    by_cases h4 : rx.size - pc < 4
    · rw [if_pos h4] at h
      cases h
      exact .packetEnd rx pc hi (by omega)
    · rw [if_neg h4, Space.readBytes_some (by omega)] at h
      match hr : rx.mem.readBytes pc (rx.size - pc) with
      | t :: f :: l1 :: l0 :: tail =>
        simp only [hr, decode] at h
        obtain ⟨rx', pc', hi', hd⟩ := exec_chunk_does (selectChunk_operands _ _ _) h
        rw [hi] at hi'
        cases hi'
        exact .chunk rx pc _ _ _ hi (by omega) hd
      | [] | [_] | [_, _] | [_, _, _] => simp [hr, decode] at h

end Sys2Proof.Machine
end

