-- ==== Sys2Proof/Laws/Commands.lean ====
section
/-! SUPPORT. Everything a command or a timer fire can do, said once. -/

namespace Sys2Proof.Machine

/-- What a command can do, in a state with no operation in progress. -/
inductive CommandDoes (s : State) : State → Prop
  | same : CommandDoes s s
  | logged (e : LogEntry) : CommandDoes s (s.raise e)
  | localPort (p : U16) : s.portsWritable = true → CommandDoes s { s with localPort := p }
  | remotePort (p : U16) : s.portsWritable = true → CommandDoes s { s with remotePort := p }
  | associated : s.terminated = false → s.state = .closed → CommandDoes s s.associate
  | aborted : s.terminated = false → CommandDoes s { ((s.cancel .init).cancel .cookie).cancel .sack with
      queue := [], pendingData := false, pendingAcknowledge := false, state := .closed, terminated := true }
  | enqueued (c : Chunk) (b : Bool) : CommandDoes s ((s.enqueue c).answer (.bool b))
  | answered (r : Result) : CommandDoes s (s.answer r)
  | rejected (e : LogEntry) : CommandDoes s ((s.raise e).answer (.bool false))
  | accepted (rx : List Byte) : s.terminated = false → 12 ≤ rx.length →
      CommandDoes s (s.atChunk (Space.ofBytes rx) 12)
  | noPacket (tx : List Byte) : CommandDoes s ({ s with tx := Space.ofBytes tx, wp := 0 }.answer (.length 0))
  | packet (sp : Space) (wp : Nat) (rest : List Chunk) : s.terminated = false → s.queue ≠ [] → sp.wf = true →
      rest <:+ s.queue → CommandDoes s ({ s with
        tx := sp, wp := wp, queue := rest, pendingData := if rest = [] then false else s.pendingData }.answer
          (.length wp))
  | fireIgnored (i : TimerId) : CommandDoes s ((s.setTimer i .idle).raise (.timerIgnored i s.state))
  | initFire : (s.timer .init).isArmed = true → s.state = .cookieWait →
      CommandDoes s (retry .init (buildInit (s.setTimer .init .idle)) (s.setTimer .init .idle))
  | cookieFire : (s.timer .cookie).isArmed = true → s.state = .cookieEchoed →
      CommandDoes s (retry .cookie (.cookieEcho 0 s.peerCookie) (s.setTimer .cookie .idle))
  | sackFire : (s.timer .sack).isArmed = true → s.state = .established →
      CommandDoes s (State.acknowledge (s.setTimer .sack .idle))

theorem parseHeader_size {rx : Space} {h : PacketHeader} (hp : parseHeader rx = some h) : 12 ≤ rx.size := by
  unfold parseHeader Space.readBytes at hp
  split at hp
  · rename_i he
    split at he
    · simpa [Config.HEADER_SIZE] using ‹_ ≤ rx.size›
    · cases he
  · cases hp

theorem headerError_none {rx : Space} {s : State} (h : headerError rx s = none) : 12 ≤ rx.size := by
  unfold headerError at h
  split at h
  · cases h
  · exact parseHeader_size ‹_›

theorem betweenOperations_none {s : State} (h : s.ingress = none) (k : Outcome) : betweenOperations s k = k := by
  simp [betweenOperations, h]

theorem exec_command_does {i : Instr} {s s' : State} {k : Byte} (hk : i.commandCode = some k)
    (h : exec i s = .next s') : s.ingress = none ∧ CommandDoes s s' := by
  have hi : s.ingress = none := by
    cases hi : s.ingress with
    | none => rfl
    | some g =>
      cases i <;> simp only [Instr.commandCode, reduceCtorEq] at hk <;>
        simp [exec, execSetLocalPort, execSetRemotePort, execAssociate, execAbort, execEnqueue, execWritePacket,
          execReadPacket, execGetState, execGetPendingData, execTimerFireInit, execTimerFireCookie, execTimerFireSack,
          fireTimer, betweenOperations, hi] at h
  refine ⟨hi, ?_⟩
  cases i <;> simp only [Instr.commandCode, reduceCtorEq] at hk
  case setLocalPort p =>
    rw [exec, execSetLocalPort, betweenOperations_none hi] at h
    split at h <;> cases h
    · exact .localPort p ‹_›
    · exact .logged _
  case setRemotePort p =>
    rw [exec, execSetRemotePort, betweenOperations_none hi] at h
    split at h <;> cases h
    · exact .remotePort p ‹_›
    · exact .logged _
  case associate =>
    rw [exec, execAssociate, betweenOperations_none hi] at h
    split at h <;> cases h
    · exact .logged _
    · rename_i hn
      simp only [not_or, Bool.not_eq_true, not_not] at hn
      exact .associated hn.1 hn.2
  case abort =>
    rw [exec, execAbort, betweenOperations_none hi] at h
    split at h <;> cases h
    · exact .same
    · exact .aborted (Bool.eq_false_iff.2 ‹_›)
  case enqueue c =>
    rw [exec, execEnqueue, betweenOperations_none hi] at h
    cases h
    exact .enqueued c _
  case writePacket rx =>
    rw [exec, execWritePacket, betweenOperations_none hi] at h
    split at h
    · cases h
      exact .answered _
    · split at h <;> cases h
      · exact .rejected _
      · exact .accepted rx (Bool.eq_false_iff.2 ‹_›) (headerError_none ‹_›)
  case readPacket tx =>
    rw [exec, execReadPacket, betweenOperations_none hi] at h
    dsimp only at h
    split at h
    · rename_i hr
      have hq : s.terminated = false ∧ s.queue ≠ [] ∧ 12 ≤ (Space.ofBytes tx).size := by
        unfold State.packetReady at hr
        split at hr
        · cases hr
        · rename_i hq
          simp only [Bool.and_eq_true, Bool.not_eq_true', decide_eq_true_eq, Config.HEADER_SIZE] at hr
          exact ⟨hr.1, by simp [hq], by omega⟩
      obtain ⟨rest, wr, h1, h2, h3, h4, h5, h6⟩ := buildPacket_ok s (Space.ofBytes_wf tx) hq.2.2
      rw [h1] at h
      cases h
      exact .packet _ _ rest hq.1 hq.2.1 h3 h2
    · cases h
      exact .noPacket tx
  case getState =>
    rw [exec, execGetState, betweenOperations_none hi] at h
    cases h
    exact .answered _
  case getPendingData =>
    rw [exec, execGetPendingData, betweenOperations_none hi] at h
    cases h
    exact .answered _
  case timerFireInit =>
    simp only [exec, execTimerFireInit, fireTimer_cases hi] at h
    cases h
    split
    · exact .same
    split
    · exact .initFire (Bool.not_eq_false _ ▸ ‹¬ _ = false›) ‹_›
    · exact .fireIgnored _
  case timerFireCookie =>
    simp only [exec, execTimerFireCookie, fireTimer_cases hi] at h
    cases h
    split
    · exact .same
    split
    · exact .cookieFire (Bool.not_eq_false _ ▸ ‹¬ _ = false›) ‹_›
    · exact .fireIgnored _
  case timerFireSack =>
    simp only [exec, execTimerFireSack, fireTimer_cases hi] at h
    cases h
    split
    · exact .same
    split
    · exact .sackFire (Bool.not_eq_false _ ▸ ‹¬ _ = false›) ‹_›
    · exact .fireIgnored _

end Sys2Proof.Machine
end

