-- ==== Sys2Proof/Laws/PerInstr.lean ====
section
/-! SUPPORT. Per instruction: the first word of the encoding matches the instruction's own row of
spec/opcode_table.json under the row's mask, with the type codes the table has (the defaults of R100, R104), and the
two default rows match none of the others. -/

namespace Sys2Proof.Laws.TableMatch

/-- The first word of a code as opcode_table.json numbers it: 4 bytes big-endian, or a command's one byte. -/
def firstWord : Code → Option U32
  | .chunk (a :: b :: c :: d :: _) => some (ofBe4 a b c d)
  | .chunk _ => none
  | .param (a :: b :: c :: d :: _) => some (ofBe4 a b c d)
  | .param _ => none
  | .command c => some (c.code.setWidth 32)

/-- The `match` values of the chunk rows, under mask 0xFF000000. -/
def chunkRows : List U32 :=
  [0x00000000, 0x01000000, 0x02000000, 0x03000000, 0x04000000, 0x05000000, 0x06000000, 0x07000000,
   0x08000000, 0x09000000, 0x0A000000, 0x0B000000, 0x0E000000, 0x82000000, 0x84000000, 0xC0000000]

/-- The `match` values of the parameter rows, under mask 0xFFFF0000. -/
def paramRows : List U32 :=
  [0x00010000, 0x00050000, 0x00060000, 0x00070000, 0x00090000, 0x000B0000, 0x80080000, 0xC0000000]

/-- The word matches the row (`mask`, `value`). -/
def Row (mask value : U32) (i : Instr) : Prop := ∃ w, firstWord (encode Codes.default i) = some w ∧ w &&& mask = value

/-- The word matches no row of a list. -/
def NoRow (mask : U32) (rows : List U32) (i : Instr) : Prop :=
  ∃ w, firstWord (encode Codes.default i) = some w ∧ w &&& mask ∉ rows

/-- Each instruction's row of the opcode table. -/
def Statement : Instr → Prop
  | .data c => Row 0xFF000000 0x00000000 (.data c)
  | .init c => Row 0xFF000000 0x01000000 (.init c)
  | .initAck c => Row 0xFF000000 0x02000000 (.initAck c)
  | .sack c => Row 0xFF000000 0x03000000 (.sack c)
  | .heartbeat c => Row 0xFF000000 0x04000000 (.heartbeat c)
  | .heartbeatAck c => Row 0xFF000000 0x05000000 (.heartbeatAck c)
  | .abortChunk c => Row 0xFF000000 0x06000000 (.abortChunk c)
  | .shutdown c => Row 0xFF000000 0x07000000 (.shutdown c)
  | .shutdownAck c => Row 0xFF000000 0x08000000 (.shutdownAck c)
  | .error c => Row 0xFF000000 0x09000000 (.error c)
  | .cookieEcho c => Row 0xFF000000 0x0A000000 (.cookieEcho c)
  | .cookieAck c => Row 0xFF000000 0x0B000000 (.cookieAck c)
  | .shutdownComplete c => Row 0xFF000000 0x0E000000 (.shutdownComplete c)
  | .reConfig c => Row 0xFF000000 0x82000000 (.reConfig c)
  | .padding c => Row 0xFF000000 0x84000000 (.padding c)
  | .forwardTSN c => Row 0xFF000000 0xC0000000 (.forwardTSN c)
  | .unknown t c => (Instr.unknown t c).wellFormed Codes.default = true → NoRow 0xFF000000 chunkRows (.unknown t c)
  | .heartbeatInfo p => Row 0xFFFF0000 0x00010000 (.heartbeatInfo p)
  | .ipv4Address p => Row 0xFFFF0000 0x00050000 (.ipv4Address p)
  | .ipv6Address p => Row 0xFFFF0000 0x00060000 (.ipv6Address p)
  | .stateCookie p => Row 0xFFFF0000 0x00070000 (.stateCookie p)
  | .cookiePreservative p => Row 0xFFFF0000 0x00090000 (.cookiePreservative p)
  | .hostName p => Row 0xFFFF0000 0x000B0000 (.hostName p)
  | .supportedExtensions p => Row 0xFFFF0000 0x80080000 (.supportedExtensions p)
  | .forwardTSNSupported p => Row 0xFFFF0000 0xC0000000 (.forwardTSNSupported p)
  | .unrecognisedParameter t p =>
    (Instr.unrecognisedParameter t p).wellFormed Codes.default = true → NoRow 0xFFFF0000 paramRows (.unrecognisedParameter t p)
  | .setLocalPort v => Row 0xFF 0x01 (.setLocalPort v)
  | .setRemotePort v => Row 0xFF 0x02 (.setRemotePort v)
  | .associate => Row 0xFF 0x03 .associate
  | .abort => Row 0xFF 0x04 .abort
  | .enqueue c => Row 0xFF 0x05 (.enqueue c)
  | .writePacket b => Row 0xFF 0x06 (.writePacket b)
  | .readPacket b => Row 0xFF 0x07 (.readPacket b)
  | .getState => Row 0xFF 0x08 .getState
  | .getPendingData => Row 0xFF 0x09 .getPendingData
  | .timerFireInit => Row 0xFF 0x10 .timerFireInit
  | .timerFireCookie => Row 0xFF 0x11 .timerFireCookie
  | .timerFireSack => Row 0xFF 0x12 .timerFireSack

/-- The chunk mask keeps the type byte. -/
theorem mask_type (t f x y : Byte) : ofBe4 t f x y &&& 0xFF000000 = ofBe4 t 0 0 0 := by
  have h : (0xFF000000 : U32) = ofBe4 (BitVec.allOnes 8) 0 0 0 := by decide
  rw [h]
  apply BitVec.eq_of_getLsbD_eq
  intro i hi
  simp only [ofBe4, BitVec.getLsbD_and, BitVec.getLsbD_append, BitVec.getLsbD_allOnes]
  split
  · simp
  · split
    · simp
    · split
      · simp
      · have : i - 8 - 8 - 8 < 8 := by omega
        simp [this]

/-- The parameter mask keeps the two type bytes. -/
theorem mask_ptype (t u x y : Byte) : ofBe4 t u x y &&& 0xFFFF0000 = ofBe4 t u 0 0 := by
  have h : (0xFFFF0000 : U32) = ofBe4 (BitVec.allOnes 8) (BitVec.allOnes 8) 0 0 := by decide
  rw [h]
  apply BitVec.eq_of_getLsbD_eq
  intro i hi
  simp only [ofBe4, BitVec.getLsbD_and, BitVec.getLsbD_append, BitVec.getLsbD_allOnes]
  split
  · simp
  · split
    · simp
    · split
      · have : i - 8 - 8 < 8 := by omega
        simp [this]
      · have : i - 8 - 8 - 8 < 8 := by omega
        simp [this]

theorem type_named {t : Byte} (h : ofBe4 t 0 0 0 ∈ chunkRows) : t ∈ Codes.default.chunkTypes := by
  have hm := List.mem_map_of_mem (f := fun w : U32 => w.extractLsb' 24 8) h
  have ht : (ofBe4 t 0 0 0).extractLsb' 24 8 = t := (List.cons.inj (be4_ofBe4 t 0 0 0)).1
  have hl : chunkRows.map (fun w : U32 => w.extractLsb' 24 8) = Codes.default.chunkTypes := by decide
  rwa [ht, hl] at hm

theorem ptype_named {t : U16} (h : ofBe4 (t.extractLsb' 8 8) (t.extractLsb' 0 8) 0 0 ∈ paramRows) :
    t ∈ Codes.default.paramTypes := by
  have hm := List.mem_map_of_mem (f := fun w : U32 => ofBe2 (w.extractLsb' 24 8) (w.extractLsb' 16 8)) h
  have hb := be4_ofBe4 (t.extractLsb' 8 8) (t.extractLsb' 0 8) 0 0
  have h1 := (List.cons.inj hb).1
  have h2 := (List.cons.inj (List.cons.inj hb).2).1
  have hl : paramRows.map (fun w : U32 => ofBe2 (w.extractLsb' 24 8) (w.extractLsb' 16 8)) =
      Codes.default.paramTypes := by decide
  simp only [h1, h2, ofBe2_extract] at hm
  rwa [hl] at hm

theorem data (c : RawChunk) : Statement (.data c) := ⟨_, rfl, by rw [mask_type]; decide⟩

theorem init (c : RawChunk) : Statement (.init c) := ⟨_, rfl, by rw [mask_type]; decide⟩

theorem initAck (c : RawChunk) : Statement (.initAck c) := ⟨_, rfl, by rw [mask_type]; decide⟩

theorem sack (c : RawChunk) : Statement (.sack c) := ⟨_, rfl, by rw [mask_type]; decide⟩

theorem heartbeat (c : RawChunk) : Statement (.heartbeat c) := ⟨_, rfl, by rw [mask_type]; decide⟩

theorem heartbeatAck (c : RawChunk) : Statement (.heartbeatAck c) := ⟨_, rfl, by rw [mask_type]; decide⟩

theorem abortChunk (c : RawChunk) : Statement (.abortChunk c) := ⟨_, rfl, by rw [mask_type]; decide⟩

theorem shutdown (c : RawChunk) : Statement (.shutdown c) := ⟨_, rfl, by rw [mask_type]; decide⟩

theorem shutdownAck (c : RawChunk) : Statement (.shutdownAck c) := ⟨_, rfl, by rw [mask_type]; decide⟩

theorem error (c : RawChunk) : Statement (.error c) := ⟨_, rfl, by rw [mask_type]; decide⟩

theorem cookieEcho (c : RawChunk) : Statement (.cookieEcho c) := ⟨_, rfl, by rw [mask_type]; decide⟩

theorem cookieAck (c : RawChunk) : Statement (.cookieAck c) := ⟨_, rfl, by rw [mask_type]; decide⟩

theorem shutdownComplete (c : RawChunk) : Statement (.shutdownComplete c) := ⟨_, rfl, by rw [mask_type]; decide⟩

theorem reConfig (c : RawChunk) : Statement (.reConfig c) := ⟨_, rfl, by rw [mask_type]; decide⟩

theorem padding (c : RawChunk) : Statement (.padding c) := ⟨_, rfl, by rw [mask_type]; decide⟩

theorem forwardTSN (c : RawChunk) : Statement (.forwardTSN c) := ⟨_, rfl, by rw [mask_type]; decide⟩

theorem unknown (t : Byte) (c : RawChunk) : Statement (.unknown t c) := by
  intro h
  simp only [Instr.wellFormed, Bool.and_eq_true, Bool.not_eq_true', List.contains_eq_mem, decide_eq_false_iff_not] at h
  refine ⟨_, rfl, fun hm => h.2 ?_⟩
  rw [mask_type] at hm
  exact type_named hm

theorem heartbeatInfo (p : RawParam) : Statement (.heartbeatInfo p) := ⟨_, rfl, by rw [mask_ptype]; decide⟩

theorem ipv4Address (p : RawParam) : Statement (.ipv4Address p) := ⟨_, rfl, by rw [mask_ptype]; decide⟩

theorem ipv6Address (p : RawParam) : Statement (.ipv6Address p) := ⟨_, rfl, by rw [mask_ptype]; decide⟩

theorem stateCookie (p : RawParam) : Statement (.stateCookie p) := ⟨_, rfl, by rw [mask_ptype]; decide⟩

theorem cookiePreservative (p : RawParam) : Statement (.cookiePreservative p) := ⟨_, rfl, by rw [mask_ptype]; decide⟩

theorem hostName (p : RawParam) : Statement (.hostName p) := ⟨_, rfl, by rw [mask_ptype]; decide⟩

theorem supportedExtensions (p : RawParam) : Statement (.supportedExtensions p) := ⟨_, rfl, by rw [mask_ptype]; decide⟩

theorem forwardTSNSupported (p : RawParam) : Statement (.forwardTSNSupported p) := ⟨_, rfl, by rw [mask_ptype]; decide⟩

theorem unrecognisedParameter (t : U16) (p : RawParam) : Statement (.unrecognisedParameter t p) := by
  intro h
  simp only [Instr.wellFormed, Bool.and_eq_true, Bool.not_eq_true', List.contains_eq_mem, decide_eq_false_iff_not] at h
  refine ⟨_, rfl, fun hm => h.2 ?_⟩
  rw [mask_ptype] at hm
  exact ptype_named hm

theorem setLocalPort (v : U16) : Statement (.setLocalPort v) :=
  ⟨_, rfl, show (0x01 : Byte).setWidth 32 &&& (0xFF : U32) = 0x01 by decide⟩

theorem setRemotePort (v : U16) : Statement (.setRemotePort v) :=
  ⟨_, rfl, show (0x02 : Byte).setWidth 32 &&& (0xFF : U32) = 0x02 by decide⟩

theorem associate : Statement .associate := ⟨_, rfl, rfl⟩

theorem abort : Statement .abort := ⟨_, rfl, rfl⟩

theorem enqueue (c : Chunk) : Statement (.enqueue c) :=
  ⟨_, rfl, show (0x05 : Byte).setWidth 32 &&& (0xFF : U32) = 0x05 by decide⟩

theorem writePacket (b : List Byte) : Statement (.writePacket b) :=
  ⟨_, rfl, show (0x06 : Byte).setWidth 32 &&& (0xFF : U32) = 0x06 by decide⟩

theorem readPacket (b : List Byte) : Statement (.readPacket b) :=
  ⟨_, rfl, show (0x07 : Byte).setWidth 32 &&& (0xFF : U32) = 0x07 by decide⟩

theorem getState : Statement .getState := ⟨_, rfl, rfl⟩

theorem getPendingData : Statement .getPendingData := ⟨_, rfl, rfl⟩

theorem timerFireInit : Statement .timerFireInit := ⟨_, rfl, rfl⟩

theorem timerFireCookie : Statement .timerFireCookie := ⟨_, rfl, rfl⟩

theorem timerFireSack : Statement .timerFireSack := ⟨_, rfl, rfl⟩

end Sys2Proof.Laws.TableMatch
end

