-- ==== Sys2Proof/Laws/Wrapper.lean ====
section
/-! SUPPORT. `Wrap` for any widths and any window (41_seqnum_wrapper.md R162, R163): what it answers, the mark it
keeps. The widths stay variables, so that no proof has to compute a power of two. -/

namespace Sys2Proof.Machine

namespace SeqWrapper

/-- The cycle count `Wrap` uses is at most one more than the register. -/
theorem wrapCycle_le (cycles maxSeqNum raw win : Nat) : wrapCycle cycles maxSeqNum raw win ≤ cycles + 1 := by
  unfold wrapCycle
  split
  · exact Nat.le_refl _
  · split <;> omega

/-- An extended value of a cycle that fits is not cut. -/
theorem ext_lt {n e c r : Nat} (h : n < e) (hc : c < 2 ^ (e - n)) (hr : r < 2 ^ n) : c * 2 ^ n + r < 2 ^ e := by
  have hp : 2 ^ (e - n) * 2 ^ n = 2 ^ e := by rw [← pow_add]; congr 1; omega
  calc c * 2 ^ n + r < c * 2 ^ n + 2 ^ n := by omega
    _ = (c + 1) * 2 ^ n := by ring
    _ ≤ 2 ^ (e - n) * 2 ^ n := Nat.mul_le_mul_right _ hc
    _ = _ := hp

/-- The registers after `Wrap`: unchanged, or set to the value answered. -/
theorem wrap_registers {n e : Nat} (win : Nat) (w : SeqWrapper n e) (raw : BitVec n) :
    (w.wrap win raw).2 = w ∨
    ∃ c, c = wrapCycle w.cycles.toNat w.maxSeqNum.toNat raw.toNat win ∧
      w.maxExtSeqNum.toNat < (BitVec.ofNat e (c * 2 ^ n + raw.toNat)).toNat ∧
      (w.wrap win raw).2 = ⟨BitVec.ofNat _ c, raw, BitVec.ofNat e (c * 2 ^ n + raw.toNat)⟩ := by
  unfold wrap
  dsimp only
  split
  · exact .inr ⟨_, rfl, ‹_›, rfl⟩
  · exact .inl rfl

/-- The mark never goes back (R163 (vi)). -/
theorem wrap_mark_le {n e : Nat} (win : Nat) (w : SeqWrapper n e) (raw : BitVec n) :
    w.maxExtSeqNum.toNat ≤ (w.wrap win raw).2.maxExtSeqNum.toNat := by
  rcases wrap_registers win w raw with h | ⟨c, -, hlt, h⟩ <;> rw [h]
  exact Nat.le_of_lt hlt

/-- The three registers stay consistent (10_state.md R59 (f)), at the end of the extended range too. -/
theorem wrap_mark {n e : Nat} (hn : n < e) (win : Nat) (w : SeqWrapper n e) (raw : BitVec n)
    (h : w.maxExtSeqNum.toNat = w.cycles.toNat * 2 ^ n + w.maxSeqNum.toNat) :
    (w.wrap win raw).2.maxExtSeqNum.toNat = (w.wrap win raw).2.cycles.toNat * 2 ^ n + (w.wrap win raw).2.maxSeqNum.toNat := by
  rcases wrap_registers win w raw with he | ⟨c, hc, hlt, he⟩ <;> rw [he]
  · exact h
  have hr := raw.isLt
  have hcy : w.cycles.toNat < 2 ^ (e - n) := w.cycles.isLt
  have hle := wrapCycle_le w.cycles.toNat w.maxSeqNum.toNat raw.toNat win
  rw [← hc] at hle
  have hp : 2 ^ (e - n) * 2 ^ n = 2 ^ e := by rw [← pow_add]; congr 1; omega
  have hfit : c < 2 ^ (e - n) := by
    by_contra hh
    have hcc : c = 2 ^ (e - n) := by omega
    have hcw : w.cycles.toNat + 1 = 2 ^ (e - n) := by omega
    rw [hcc, hp, BitVec.toNat_ofNat, Nat.add_mod_left] at hlt
    have hraw : raw.toNat % 2 ^ e ≤ raw.toNat := Nat.mod_le _ _
    have hbig : 2 ^ n ≤ w.cycles.toNat * 2 ^ n := by
      have : 2 ≤ 2 ^ (e - n) := by
        calc 2 = 2 ^ 1 := rfl
          _ ≤ 2 ^ (e - n) := Nat.pow_le_pow_right (by omega) (by omega)
      have : 1 ≤ w.cycles.toNat := by omega
      calc 2 ^ n = 1 * 2 ^ n := by omega
        _ ≤ w.cycles.toNat * 2 ^ n := Nat.mul_le_mul_right _ this
    omega
  have h1 : (BitVec.ofNat e (c * 2 ^ n + raw.toNat)).toNat = c * 2 ^ n + raw.toNat := by
    rw [BitVec.toNat_ofNat, Nat.mod_eq_of_lt (ext_lt hn hfit hr)]
  have h2 : (BitVec.ofNat (e - n) c).toNat = c := by
    rw [BitVec.toNat_ofNat, Nat.mod_eq_of_lt]
    exact hfit
  rw [h1, h2]

end SeqWrapper

/-- A TSN fed to the association's wrapper leaves its parameters alone. -/
theorem TsnWrapper.wrapTSN_params (w : TsnWrapper) (tsn : U32) :
    (w.wrapTSN tsn).2.tsnBits = w.tsnBits ∧ (w.wrapTSN tsn).2.extBits = w.extBits ∧
    (w.wrapTSN tsn).2.outOfOrderWindow = w.outOfOrderWindow := ⟨rfl, rfl, rfl⟩

/-- At the default widths a TSN is wrapped as it stands. -/
theorem TsnWrapper.wrapTSN_default (win : Nat) (r : SeqWrapper 32 64) (tsn : U32) :
    (⟨32, 64, win, r⟩ : TsnWrapper).wrapTSN tsn = ((r.wrap win tsn).1, ⟨32, 64, win, (r.wrap win tsn).2⟩) := by
  simp [TsnWrapper.wrapTSN]

end Sys2Proof.Machine
end

