-- ==== Sys2Proof/Tests/Slice0.lean ====
section
/-! SUPPORT. Tests of the model, their expected values taken from the worked examples of the rules and from
95_test_vectors.md, and for every statement that has hypotheses a witness that meets them. -/

namespace Sys2Proof.Tests
open Sys2Proof.Machine
-- One theorem at a time: many small kernel evaluations at once take a thread with a large stack each.
set_option Elab.async false

/-! ## Helpers -/

/-- `<43 4F 4F 4B 49 45>`, the cookie of the test vectors. -/
def cookieBytes : List Byte := [0x43, 0x4F, 0x4F, 0x4B, 0x49, 0x45]

/-- The type codes of the test vectors: the defaults (30_encoding.md R100, R104). -/
abbrev rfc : Codes := Codes.default

/-- The common configuration of 95_test_vectors.md. -/
def testParams : Params := ⟨rfc, 10, 100, 100, 0x00020000, 10, 10, cookieBytes, none, false, none, false, false⟩

/-- The reset state with that configuration. -/
def testState : State := { State.reset with params := testParams }

/-- The same with the ports set (V-K1). -/
def portsSet : State := { testState with localPort := 5000, remotePort := 5001 }

/-- INIT of V-H1. -/
def initV : Chunk := .init 0 ⟨0x11223344, 0x00020000, 10, 10, 100, [], [], none, none, false, []⟩ none

/-- The state after program P1, step 2 (the active open). -/
def waiting : State :=
  { portsSet with
    localVerificationTag := 0x11223344, localInitialTSN := 100, state := .cookieWait
    timers := ⟨.armed 100, .idle, .idle⟩, queue := [initV], pendingData := true }

/-- The state after program P1, step 5 (COOKIE-ECHO sent). -/
def echoed : State :=
  { portsSet with
    localVerificationTag := 0x11223344, localInitialTSN := 100, remoteVerificationTag := 0xAABBCCDD
    state := .cookieEchoed, peerCookie := cookieBytes, timers := ⟨.idle, .armed 100, .idle⟩ }

/-- The "Established start state" of 95_test_vectors.md. -/
def established : State :=
  { portsSet with
    state := .established, localVerificationTag := 0x55667788, remoteVerificationTag := 0xAABBCCDD }

/-- The state after step (2) of V-D6: DATA 6 stored, the SACK timer armed. -/
def delayed : State :=
  { established with
    lastReceivedTSN := 5, lastReceivedTSNValid := true, receivedTSNs := [6], wrapper := ⟨32, 64, 2147483648, ⟨0, 6, 6⟩⟩
    timers := ⟨.idle, .idle, .armed 100⟩, pendingAcknowledge := true, pendingAcknowledgeTimeout := 100 }

/-- A terminated block (R314). -/
def aborted : State := { testState with terminated := true }

/-- The RX space of the packet whose chunks are `bytes`. -/
def rxOf (bytes : List Byte) : Space := Space.ofBytes (zeros 12 ++ bytes)

/-- The state with that packet in progress, its first chunk next. -/
def onChunk (bytes : List Byte) (s : State) : State := s.atChunk (rxOf bytes) 12

/-- The state with a parameter list in progress; the chunk after it would start at 40. -/
def onParam (b : Building) (bytes : List Byte) (s : State) : State :=
  { s with ingress := some ⟨Space.ofBytes (zeros 40), 12, some ⟨b, Reader.ofBytes bytes, 40⟩⟩ }

/-- The next state of an outcome. -/
def after : Outcome → Option State
  | .next s => some s
  | .fault _ => none
  | .refused _ => none

/-- The record that is being assembled. -/
def State.building (s : State) : Option Building := (s.ingress.bind (·.params)).map (·.building)

/-- The parse cursor. -/
def State.pc? (s : State) : Option Nat := s.ingress.map (·.pc)

/-- The fixed part of INIT V-H1 as it is after its parsing. -/
def initFixed : InitRec := ⟨0x11223344, 0x00020000, 10, 10, 100, [], [], none, none, false, []⟩

/-- The fixed part of INIT-ACK V-H3. -/
def initAckFixed : InitRec := ⟨0xAABBCCDD, 0x00010000, 10, 10, 1000, [], [], none, none, false, []⟩

/-- SACK of V-S6. -/
def sackV : Chunk := .sack 0 ⟨5, 0x00020000, [], []⟩

/-! ## Ill-formed terms, one for each check of WellFormed -/

theorem test_chunk_length_checked : (Instr.cookieAck ⟨0, 5, []⟩).wellFormed rfc = false := by decide
theorem test_chunk_length_below_4 : (Instr.data ⟨0, 3, []⟩).wellFormed rfc = false := by decide
theorem test_unknown_named_type : (Instr.unknown 0x0A ⟨0, 4, []⟩).wellFormed rfc = false := by decide
theorem test_unknown_length : (Instr.unknown 0x0F ⟨0, 5, []⟩).wellFormed rfc = false := by decide
theorem test_param_length_checked : (Instr.ipv4Address ⟨9, [1, 2, 3, 4]⟩).wellFormed rfc = false := by decide
theorem test_unrecognised_named_type : (Instr.unrecognisedParameter 7 ⟨4, []⟩).wellFormed rfc = false := by decide
theorem test_unrecognised_length : (Instr.unrecognisedParameter 0x8001 ⟨3, []⟩).wellFormed rfc = false := by decide

/-! ## Every constructor's decoding, from the bytes of the spec -/

/-- V-S1. -/
theorem decodes_data :
    decode rfc (.chunk [0x00, 0x03, 0x00, 0x12, 0, 0, 0, 5, 0, 0, 0, 0, 0, 0, 0, 0x33, 0x68, 0x69, 0, 0]) =
      .ok (.data ⟨3, 18, [0, 0, 0, 5, 0, 0, 0, 0, 0, 0, 0, 0x33, 0x68, 0x69]⟩) := rfl
/-- V-H1. -/
theorem decodes_init :
    decode rfc (.chunk [0x01, 0x00, 0x00, 0x14, 0x11, 0x22, 0x33, 0x44, 0, 2, 0, 0, 0, 10, 0, 10, 0, 0, 0, 0x64]) =
      .ok (.init ⟨0, 20, [0x11, 0x22, 0x33, 0x44, 0, 2, 0, 0, 0, 10, 0, 10, 0, 0, 0, 0x64]⟩) := rfl
/-- V-H4. -/
theorem decodes_initAck :
    decode rfc (.chunk [0x02, 0x00, 0x00, 0x18, 0, 0, 0, 1, 0, 0, 0, 0, 0, 1, 0, 1, 0, 0, 0, 0, 0, 7, 0, 4]) =
      .ok (.initAck ⟨0, 24, [0, 0, 0, 1, 0, 0, 0, 0, 0, 1, 0, 1, 0, 0, 0, 0, 0, 7, 0, 4]⟩) := rfl
/-- V-S6. -/
theorem decodes_sack :
    decode rfc (.chunk [0x03, 0x00, 0x00, 0x10, 0, 0, 0, 5, 0, 2, 0, 0, 0, 0, 0, 0]) =
      .ok (.sack ⟨0, 16, [0, 0, 0, 5, 0, 2, 0, 0, 0, 0, 0, 0]⟩) := rfl
/-- V-S7. -/
theorem decodes_heartbeat :
    decode rfc (.chunk [0x04, 0x00, 0x00, 0x0D, 0, 1, 0, 9, 1, 2, 3, 4, 5, 0, 0, 0]) =
      .ok (.heartbeat ⟨0, 13, [0, 1, 0, 9, 1, 2, 3, 4, 5]⟩) := rfl
/-- V-S7. -/
theorem decodes_heartbeatAck :
    decode rfc (.chunk [0x05, 0x00, 0x00, 0x0D, 0, 1, 0, 9, 1, 2, 3, 4, 5, 0, 0, 0]) =
      .ok (.heartbeatAck ⟨0, 13, [0, 1, 0, 9, 1, 2, 3, 4, 5]⟩) := rfl
/-- V-O4. -/
theorem decodes_abortChunk :
    decode rfc (.chunk [0x06, 0x01, 0x00, 0x08, 0, 1, 0, 4]) = .ok (.abortChunk ⟨1, 8, [0, 1, 0, 4]⟩) := rfl
/-- V-O1. -/
theorem decodes_shutdown :
    decode rfc (.chunk [0x07, 0x00, 0x00, 0x08, 1, 2, 3, 4]) = .ok (.shutdown ⟨0, 8, [1, 2, 3, 4]⟩) := rfl
/-- V-O2. -/
theorem decodes_shutdownAck : decode rfc (.chunk [0x08, 0x00, 0x00, 0x04]) = .ok (.shutdownAck ⟨0, 4, []⟩) := rfl
/-- V-O5. -/
theorem decodes_error :
    decode rfc (.chunk [0x09, 0x00, 0x00, 0x0C, 0, 6, 0, 8, 0xFE, 0, 0, 4]) =
      .ok (.error ⟨0, 12, [0, 6, 0, 8, 0xFE, 0, 0, 4]⟩) := rfl
/-- V-H5. -/
theorem decodes_cookieEcho :
    decode rfc (.chunk [0x0A, 0x00, 0x00, 0x0A, 0x43, 0x4F, 0x4F, 0x4B, 0x49, 0x45, 0, 0]) =
      .ok (.cookieEcho ⟨0, 10, cookieBytes⟩) := rfl
/-- V-H6. -/
theorem decodes_cookieAck : decode rfc (.chunk [0x0B, 0x00, 0x00, 0x04]) = .ok (.cookieAck ⟨0, 4, []⟩) := rfl
/-- V-O3. -/
theorem decodes_shutdownComplete :
    decode rfc (.chunk [0x0E, 0x01, 0x00, 0x04]) = .ok (.shutdownComplete ⟨1, 4, []⟩) := rfl
/-- V-O6. -/
theorem decodes_reConfig :
    decode rfc (.chunk [0x82, 0x00, 0x00, 0x09, 0, 0x0D, 0, 5, 9, 0, 0, 0]) =
      .ok (.reConfig ⟨0, 9, [0, 0x0D, 0, 5, 9]⟩) := rfl
/-- V-O8. -/
theorem decodes_padding :
    decode rfc (.chunk [0x84, 0x00, 0x00, 0x0A, 0, 0, 0, 0, 0, 0, 0, 0]) =
      .ok (.padding ⟨0, 10, [0, 0, 0, 0, 0, 0]⟩) := rfl
/-- V-O7. -/
theorem decodes_forwardTSN :
    decode rfc (.chunk [0xC0, 0x00, 0x00, 0x0C, 0, 0, 0, 9, 0, 1, 0, 2]) =
      .ok (.forwardTSN ⟨0, 12, [0, 0, 0, 9, 0, 1, 0, 2]⟩) := rfl
/-- V-O9. -/
theorem decodes_unknown :
    decode rfc (.chunk [0x0F, 0x80, 0x00, 0x07, 0xDE, 0xAD, 0xBE, 0]) =
      .ok (.unknown 0x0F ⟨0x80, 7, [0xDE, 0xAD, 0xBE]⟩) := rfl
/-- V-S7. -/
theorem decodes_heartbeatInfo :
    decode rfc (.param [0, 1, 0, 9, 1, 2, 3, 4, 5]) = .ok (.heartbeatInfo ⟨9, [1, 2, 3, 4, 5]⟩) := rfl
/-- V-H2. -/
theorem decodes_ipv4Address :
    decode rfc (.param [0, 5, 0, 8, 0xC0, 0xA8, 0, 1]) = .ok (.ipv4Address ⟨8, [0xC0, 0xA8, 0, 1]⟩) := rfl
/-- R104: type 6, 16 value bytes. -/
theorem decodes_ipv6Address :
    decode rfc (.param [0, 6, 0, 20, 0x20, 1, 0, 0, 0, 0, 0, 0, 0, 0, 0, 0, 0, 0, 0, 1]) =
      .ok (.ipv6Address ⟨20, [0x20, 1, 0, 0, 0, 0, 0, 0, 0, 0, 0, 0, 0, 0, 0, 1]⟩) := rfl
/-- V-H3. -/
theorem decodes_stateCookie :
    decode rfc (.param [0, 7, 0, 10, 0x43, 0x4F, 0x4F, 0x4B, 0x49, 0x45, 0, 0]) =
      .ok (.stateCookie ⟨10, cookieBytes⟩) := rfl
/-- V-H2. -/
theorem decodes_cookiePreservative :
    decode rfc (.param [0, 9, 0, 8, 0, 0, 3, 0xE8]) = .ok (.cookiePreservative ⟨8, [0, 0, 3, 0xE8]⟩) := rfl
/-- V-H2. -/
theorem decodes_hostName :
    decode rfc (.param [0, 0x0B, 0, 5, 0x61, 0, 0, 0]) = .ok (.hostName ⟨5, [0x61]⟩) := rfl
/-- V-H2. -/
theorem decodes_supportedExtensions :
    decode rfc (.param [0x80, 8, 0, 6, 0x82, 0xC0, 0, 0]) = .ok (.supportedExtensions ⟨6, [0x82, 0xC0]⟩) := rfl
/-- V-H2. -/
theorem decodes_forwardTSNSupported :
    decode rfc (.param [0xC0, 0, 0, 4]) = .ok (.forwardTSNSupported ⟨4, []⟩) := rfl
/-- V-H2. -/
theorem decodes_unrecognised :
    decode rfc (.param [0x80, 1, 0, 7, 0xAA, 0xBB, 0xCC, 0]) =
      .ok (.unrecognisedParameter 0x8001 ⟨7, [0xAA, 0xBB, 0xCC]⟩) := rfl
/-- The twelve codes of R109. -/
theorem decodes_commands :
    decode rfc (.command ⟨0x01, 5000, Chunk.blank, []⟩) = .ok (.setLocalPort 5000) ∧
    decode rfc (.command ⟨0x02, 5001, Chunk.blank, []⟩) = .ok (.setRemotePort 5001) ∧
    decode rfc (.command ⟨0x03, 0, Chunk.blank, []⟩) = .ok .associate ∧
    decode rfc (.command ⟨0x04, 0, Chunk.blank, []⟩) = .ok .abort ∧
    decode rfc (.command ⟨0x05, 0, initV, []⟩) = .ok (.enqueue initV) ∧
    decode rfc (.command ⟨0x06, 0, Chunk.blank, [1, 2]⟩) = .ok (.writePacket [1, 2]) ∧
    decode rfc (.command ⟨0x07, 0, Chunk.blank, [0, 0]⟩) = .ok (.readPacket [0, 0]) ∧
    decode rfc (.command ⟨0x08, 0, Chunk.blank, []⟩) = .ok .getState ∧
    decode rfc (.command ⟨0x09, 0, Chunk.blank, []⟩) = .ok .getPendingData ∧
    decode rfc (.command ⟨0x10, 0, Chunk.blank, []⟩) = .ok .timerFireInit ∧
    decode rfc (.command ⟨0x11, 0, Chunk.blank, []⟩) = .ok .timerFireCookie ∧
    decode rfc (.command ⟨0x12, 0, Chunk.blank, []⟩) = .ok .timerFireSack :=
  ⟨rfl, rfl, rfl, rfl, rfl, rfl, rfl, rfl, rfl, rfl, rfl, rfl⟩
/-- A code outside R109 is rejected by name. -/
theorem decode_rejects : decode rfc (.command ⟨0x0A, 0, Chunk.blank, []⟩) = .error (.unknownCommand 0x0A) := rfl

/-! ## Codec, header, wrapper, tracker: the worked values of the rules -/

/-- V-H2: every parameter kind, in the canonical order. -/
theorem test_init_image :
    (Chunk.init 0 ⟨0x11223344, 0x00020000, 10, 10, 100, [[0xC0, 0xA8, 0, 1]], [], some [0x61], some [130, 192], true,
        [(0x8001, [0xAA, 0xBB, 0xCC])]⟩ (some 1000)).image rfc =
      [0x01, 0x00, 0x00, 0x3F, 0x11, 0x22, 0x33, 0x44, 0, 2, 0, 0, 0, 0x0A, 0, 0x0A, 0, 0, 0, 0x64,
       0, 5, 0, 8, 0xC0, 0xA8, 0, 1, 0, 0x0B, 0, 5, 0x61, 0, 0, 0, 0, 9, 0, 8, 0, 0, 3, 0xE8,
       0x80, 8, 0, 6, 0x82, 0xC0, 0, 0, 0xC0, 0, 0, 4, 0x80, 1, 0, 7, 0xAA, 0xBB, 0xCC, 0] := by decide +kernel
/-- V-H3. -/
theorem test_initAck_image :
    (Chunk.initAck 0 initAckFixed (some cookieBytes)).image rfc =
      [0x02, 0, 0, 0x1E, 0xAA, 0xBB, 0xCC, 0xDD, 0, 1, 0, 0, 0, 0x0A, 0, 0x0A, 0, 0, 3, 0xE8,
       0, 7, 0, 0x0A, 0x43, 0x4F, 0x4F, 0x4B, 0x49, 0x45, 0, 0] := by decide +kernel
/-- V-S5. -/
theorem test_sack_image :
    (Chunk.sack 0 ⟨8, 0x00020000, [(2, 3), (6, 6)], [11]⟩).image rfc =
      [0x03, 0, 0, 0x1C, 0, 0, 0, 8, 0, 2, 0, 0, 0, 2, 0, 1, 0, 2, 0, 3, 0, 6, 0, 6, 0, 0, 0, 0x0B] := by
  decide +kernel
/-- V-H8: the last parameter without its padding. -/
theorem test_unpadded_last_parameter :
    parseChunk rfc [0x01, 0, 0, 0x19, 0x11, 0x22, 0x33, 0x44, 0, 2, 0, 0, 0, 0x0A, 0, 0x0A, 0, 0, 0, 0x64,
        0, 0x0B, 0, 5, 0x61] =
      (some (.init 0 { initFixed with hostName := some [0x61] } none), 25) := by decide +kernel
/-- V-S8: counts that disagree with the length. -/
theorem test_sack_counts :
    parseChunk rfc [0x03, 0, 0, 0x14, 0, 0, 0, 5, 0, 2, 0, 0, 0, 1, 0, 1, 0, 2, 0, 2] = (none, 20) := by decide +kernel
/-- R222: `B` = 1, `E` = 1, `U` = 0 of V-S1. -/
theorem test_data_flags : flagB 3 = true ∧ flagE 3 = true ∧ flagU 3 = false ∧ dataFlag false true true = 3 := by
  decide
/-- V-C4. -/
theorem test_parseHeader :
    parseHeader (Space.ofBytes [0x13, 0x88, 0x13, 0x89, 0, 0, 0, 0, 0x9A, 0x60, 0x57, 0x1A]) =
        some ⟨5000, 5001, 0, 0x1A57609A⟩ ∧
      parseHeader (Space.ofBytes [0x13, 0x88, 0x13, 0x89, 0, 0, 0, 0, 0x9A, 0x60, 0x57]) = none := by decide +kernel
/-- R298. -/
theorem test_packet_checksum :
    crc32c ([0x13, 0x88, 0x13, 0x89, 0, 0, 0, 0, 0, 0, 0, 0] ++ initV.image rfc) = 0x1A57609A := by decide +kernel
/-- R162, R165, R166, R167: cases (a), (c), and the far-ahead value. -/
theorem test_wrap :
    (⟨0, 0xFFFFFFF0, 0xFFFFFFF0⟩ : SeqWrapper 32 64).wrap 2147483648 2 = (0x100000002, ⟨1, 2, 0x100000002⟩) ∧
    (⟨0, 0x80000000, 0x80000000⟩ : SeqWrapper 32 64).wrap 2147483648 0 = (0, ⟨0, 0x80000000, 0x80000000⟩) ∧
    (⟨0, 5, 5⟩ : SeqWrapper 32 64).wrap 2147483648 0xFFFFFFFF = (0xFFFFFFFF, ⟨0, 0xFFFFFFFF, 0xFFFFFFFF⟩) := by decide +kernel
/-- V-W6: case (b). -/
theorem test_wrap_previous_cycle :
    (⟨1, 5, 0x100000005⟩ : SeqWrapper 32 64).wrap 2147483648 0xFFFFFFF0 = (0xFFFFFFF0, ⟨1, 5, 0x100000005⟩) := by decide +kernel
/-- R360. -/
theorem test_hasGap : hasGap [5, 7] = true ∧ hasGap [5, 5, 6] = false ∧ hasGap [9] = false := by decide
/-- V-D5, R364 (iv). -/
theorem test_ackWalk :
    buildSack State.reset.wrapper 0x00020000 (ackWalk 8 [10, 11, 11, 14]) = .sack 0 ⟨8, 0x00020000, [(2, 3), (6, 6)], [11]⟩ := by
  decide +kernel
/-- V-D8. -/
theorem test_gap_overflow :
    gapOffsets 5 (65541, 65541) = (0, 0) ∧ gapOverflows 5 [(65541, 65541)] = [.gapOffsetOverflow 65541 65541 5] ∧
    gapOffsets 5 (65540, 65540) = (65535, 65535) ∧ gapOverflows 5 [(65540, 65540)] = [] := by decide +kernel
/-- Reset memory is canonical (log 8). -/
theorem test_reset_tx_wf : State.reset.tx.wf = true := by decide

/-! ## One step of each instruction -/

/-- The chunk `x` of 95_test_vectors.md 2.8: the first DATA asks for an acknowledgement at once (R358). -/
theorem test_data :
    (after (step (onChunk [0x00, 0x03, 0, 0x11, 0, 0, 0, 5, 0, 0, 0, 0, 0, 0, 0, 0x33, 0x78, 0, 0, 0] established))).map
        (fun s => (s.receivedTSNs, s.pendingAcknowledge, s.pendingAcknowledgeTimeout, s.events, State.pc? s)) =
      some ([5], true, 0, [.dataIndication (.data 3 ⟨5, 0, 0, 0x33, [0x78]⟩)], some 32) := by decide +kernel
/-- V-D3: DATA in Closed. -/
theorem test_data_closed :
    (after (step (onChunk [0x00, 0x03, 0, 0x11, 0, 0, 0, 5, 0, 0, 0, 0, 0, 0, 0, 0x33, 0x78, 0, 0, 0] portsSet))).map
        (fun s => (s.receivedTSNs, s.events, s.log)) = some ([], [], [.stateViolation .closed 0]) := by decide +kernel
/-- R352: the passive open, draws 0x55667788 and 0x200. -/
theorem test_init :
    (after (step (onChunk [0x01, 0, 0, 0x14, 0xAA, 0xBB, 0xCC, 0xDD, 0, 1, 0, 0, 0, 10, 0, 10, 0, 0, 3, 0xE8]
        { portsSet with draws := [0x55667788, 0x200] }))).map
        (fun s => (s.remoteVerificationTag, s.localVerificationTag, s.queue, s.state)) =
      some (0xAABBCCDD, 0x55667788,
        [.initAck 0 ⟨0x55667788, 0x00020000, 10, 10, 0x200, [], [], none, none, false, []⟩ (some cookieBytes)],
        .closed) := by decide +kernel
/-- V-D4: INIT-ACK without a cookie. -/
theorem test_initAck :
    (after (step (onChunk [0x02, 0, 0, 0x14, 0xAA, 0xBB, 0xCC, 0xDD, 0, 1, 0, 0, 0, 10, 0, 10, 0, 0, 3, 0xE8]
        waiting))).map (fun s => (s.log, s.state, s.timers.init, s.remoteVerificationTag)) =
      some ([.stateViolation .cookieWait 2], .cookieWait, .armed 100, 0) := by decide +kernel
/-- V-D1. -/
theorem test_sack :
    (after (step (onChunk [0x03, 0, 0, 0x10, 0, 0, 0, 5, 0, 0, 0, 0, 0, 0, 0, 0] established))).map
        (fun s => (s.log, s.queue, s.events)) = some ([.stateViolation .established 3], [], []) := by decide +kernel
/-- R237: the body must hold a parameter header. -/
theorem test_heartbeat :
    (after (step (onChunk [0x04, 0, 0, 0x04] established))).map (fun s => (s.log, State.pc? s)) =
      some ([.chunkBodyMalformed 12 4], some 16) := by decide +kernel
/-- R240. -/
theorem test_heartbeatAck :
    (after (step (onChunk [0x05, 0, 0, 0x0D, 0, 1, 0, 9, 1, 2, 3, 4, 5, 0, 0, 0] established))).map
        (fun s => (s.log, State.building s)) = some ([], some (.heartbeatAck 0 none)) := by decide +kernel
/-- R365: an ABORT chunk does not close the association. -/
theorem test_abortChunk :
    (after (step (onChunk [0x06, 0x01, 0, 8, 0, 1, 0, 4] established))).map (fun s => (s.log, s.state)) =
      some ([.stateViolation .established 6], .established) := by decide +kernel
/-- V-O1: a 2-byte body. -/
theorem test_shutdown :
    (after (step (onChunk [0x07, 0, 0, 6, 0, 0, 0, 0] established))).map (fun s => (s.log, State.pc? s)) =
      some ([.chunkBodyMalformed 12 7], some 20) := by decide +kernel
theorem test_shutdownAck :
    (after (step (onChunk [0x08, 0, 0, 4] established))).map (fun s => (s.log, s.state)) =
      some ([.stateViolation .established 8], .established) := by decide +kernel
theorem test_error :
    (after (step (onChunk [0x09, 0, 0, 4] established))).map (fun s => (s.log, s.state)) =
      some ([.stateViolation .established 9], .established) := by decide +kernel
/-- R353. -/
theorem test_cookieEcho :
    (after (step (onChunk [0x0A, 0, 0, 4] portsSet))).map (fun s => (s.state, s.queue, s.events)) =
      some (.established, [.cookieAck 0], [.pendingData]) := by decide +kernel
/-- R356, program P1 step 6. -/
theorem test_cookieAck :
    (after (step (onChunk [0x0B, 0, 0, 4] echoed))).map (fun s => (s.state, s.timers.cookie, s.events)) =
      some (.established, .idle, [.timerCancel .cookie]) := by decide +kernel
/-- V-H7: COOKIE-ACK with a body. -/
theorem test_cookieAck_body :
    (after (step (onChunk [0x0B, 0, 0, 8, 0, 0, 0, 0] echoed))).map (fun s => (s.state, s.log)) =
      some (.cookieEchoed, [.chunkBodyMalformed 12 11]) := by decide +kernel
theorem test_shutdownComplete :
    (after (step (onChunk [0x0E, 1, 0, 4] established))).map (fun s => (s.log, s.state)) =
      some ([.stateViolation .established 14], .established) := by decide +kernel
theorem test_reConfig :
    (after (step (onChunk [0x82, 0, 0, 9, 0, 0x0D, 0, 5, 9, 0, 0, 0] established))).map (fun s => (s.log, State.pc? s)) =
      some ([.stateViolation .established 130], some 24) := by decide +kernel
theorem test_padding :
    (after (step (onChunk [0x84, 0, 0, 0x0A, 0, 0, 0, 0, 0, 0, 0, 0] established))).map
      (fun s => (s.log, State.pc? s)) = some ([.stateViolation .established 132], some 24) := by decide +kernel
theorem test_forwardTSN :
    (after (step (onChunk [0xC0, 0, 0, 0x0C, 0, 0, 0, 9, 0, 1, 0, 2] established))).map
      (fun s => (s.log, s.lastReceivedTSNValid)) = some ([.stateViolation .established 192], false) := by decide +kernel
theorem test_unknown :
    (after (step (onChunk [0x0F, 0x80, 0, 7, 0xDE, 0xAD, 0xBE, 0] established))).map (fun s => (s.log, State.pc? s)) =
      some ([.stateViolation .established 0x0F], some 20) := by decide +kernel
/-- V-O12: length 2 drops the rest of the packet. -/
theorem test_length_drops_rest :
    (after (step (onChunk [0x00, 3, 0, 2, 0, 3, 0, 0x11, 0, 0, 0, 5] established))).map
      (fun s => (s.log, State.pc? s, s.receivedTSNs)) =
      some ([.chunkLengthInvalid 12 0 2], some 24, []) := by decide +kernel
/-- V-D6 step (3): the HEARTBEAT is complete with its info parameter, and ignored. -/
theorem test_heartbeatInfo :
    (after (step (onParam (.heartbeat 0 none) [0, 1, 0, 9, 1, 2, 3, 4, 5] established))).map
        (fun s => (s.log, State.pc? s, State.building s)) =
      some ([.stateViolation .established 4], some 40, none) := by decide +kernel
/-- V-S8: two parameters. -/
theorem test_heartbeatInfo_twice :
    (after (step (onParam (.heartbeat 0 (some [])) [0, 1, 0, 4] established))).map (fun s => s.log) =
      some [.chunkBodyMalformed 12 4] := by decide +kernel
/-- V-H2; the parameter after it is still to come. -/
theorem test_ipv4Address :
    (after (step (onParam (.init 0 initFixed none) [0, 5, 0, 8, 0xC0, 0xA8, 0, 1, 0, 0x0B, 0, 4] portsSet))).map
      State.building = some (some (.init 0 { initFixed with ipv4 := [[0xC0, 0xA8, 0, 1]] } none)) := by decide +kernel
/-- V-H7: 5 value bytes. -/
theorem test_ipv4Address_length :
    (after (step (onParam (.init 0 initFixed none) [0, 5, 0, 9, 1, 2, 3, 4, 5, 0, 0, 0] portsSet))).map
      (fun s => (s.log, State.pc? s)) = some ([.chunkBodyMalformed 12 1], some 40) := by decide +kernel
theorem test_ipv6Address :
    (after (step (onParam (.init 0 initFixed none)
        [0, 6, 0, 20, 0x20, 1, 0, 0, 0, 0, 0, 0, 0, 0, 0, 0, 0, 0, 0, 1, 0, 0x0B, 0, 4] portsSet))).map State.building =
      some (some (.init 0 { initFixed with ipv6 := [[0x20, 1, 0, 0, 0, 0, 0, 0, 0, 0, 0, 0, 0, 0, 0, 1]] } none)) := by
  decide +kernel
/-- R354, program P1 step 4: the state cookie completes the INIT-ACK. -/
theorem test_stateCookie :
    (after (step (onParam (.initAck 0 initAckFixed none) [0, 7, 0, 10, 0x43, 0x4F, 0x4F, 0x4B, 0x49, 0x45]
        { waiting with queue := [], pendingData := false }))).map
        (fun s => ((s.state, s.remoteVerificationTag, s.peerCookie), s.queue, s.timers, s.events)) =
      some ((.cookieEchoed, 0xAABBCCDD, cookieBytes), [.cookieEcho 0 cookieBytes], ⟨.idle, .armed 100, .idle⟩,
        [.timerCancel .init, .pendingData, .timerArm .cookie 100]) := by decide +kernel
/-- V-H8: a state cookie in an INIT is kept as unrecognised. -/
theorem test_stateCookie_in_init :
    (after (step (onParam (.init 0 initFixed none) [0, 7, 0, 6, 0xAB, 0xCD, 0, 0, 0, 0x0B, 0, 4] portsSet))).map
      State.building = some (some (.init 0 { initFixed with unknownParams := [(7, [0xAB, 0xCD])] } none)) := by
  decide +kernel
theorem test_cookiePreservative :
    (after (step (onParam (.init 0 initFixed none) [0, 9, 0, 8, 0, 0, 3, 0xE8, 0, 0x0B, 0, 4] portsSet))).map
      State.building = some (some (.init 0 initFixed (some 1000))) := by decide +kernel
/-- R187 (iii): the second host name wins; its padding is skipped. -/
theorem test_hostName :
    (after (step (onParam (.init 0 { initFixed with hostName := some [0x62] } none)
        [0, 0x0B, 0, 5, 0x61, 0, 0, 0, 0, 0x0B, 0, 4] portsSet))).map State.building =
      some (some (.init 0 { initFixed with hostName := some [0x61] } none)) := by decide +kernel
theorem test_supportedExtensions :
    (after (step (onParam (.init 0 initFixed none) [0x80, 8, 0, 6, 0x82, 0xC0, 0, 0, 0, 0x0B, 0, 4] portsSet))).map
      State.building = some (some (.init 0 { initFixed with supportedExtensions := some [130, 192] } none)) := by
  decide +kernel
theorem test_forwardTSNSupported :
    (after (step (onParam (.init 0 initFixed none) [0xC0, 0, 0, 4, 0, 0x0B, 0, 4] portsSet))).map State.building =
      some (some (.init 0 { initFixed with forwardTSNSupported := true } none)) := by decide +kernel
theorem test_unrecognised :
    (after (step (onParam (.init 0 initFixed none) [0x80, 1, 0, 7, 0xAA, 0xBB, 0xCC, 0, 0, 0x0B, 0, 4] portsSet))).map
      State.building = some (some (.init 0 { initFixed with unknownParams := [(0x8001, [0xAA, 0xBB, 0xCC])] } none)) := by
  decide +kernel
/-- V-H7: stray bytes. -/
theorem test_stray_bytes :
    (after (step (onParam (.init 0 initFixed none) [0, 0x0B] portsSet))).map (fun s => (s.log, State.pc? s)) =
      some ([.chunkBodyMalformed 12 1], some 40) := by decide +kernel

/-- R311's example, by way of the port. -/
theorem test_setLocalPort :
    (after (step { testState with port := [⟨1, 5000, Chunk.blank, []⟩] })).map (fun s => (s.localPort, s.port)) =
      some (5000, []) := by decide +kernel
/-- V-K1: after Associate. -/
theorem test_setLocalPort_ignored :
    (after (exec (.setLocalPort 6000) waiting)).map (fun s => (s.localPort, s.log)) =
      some (5000, [.commandIgnored 1]) := by decide +kernel
theorem test_setRemotePort :
    (after (exec (.setRemotePort 5001) testState)).map (fun s => (s.remotePort, s.localPort)) = some (5001, 0) := by
  decide +kernel
/-- R313's example, with the draw of 0 of V-K8. -/
theorem test_associate :
    (after (exec .associate { portsSet with draws := [0, 0x11223344, 100] })).map
        (fun s => (s.state, s.queue, s.timers.init, s.localInitialTSN, s.events)) =
      some (.cookieWait, [initV], .armed 100, 100, [.pendingData, .timerArm .init 100]) := by decide +kernel
/-- V-K7. -/
theorem test_associate_twice :
    (after (exec .associate waiting)).map (fun s => (s.queue, s.log)) = some ([initV], [.commandIgnored 3]) := by
  decide +kernel
/-- R314's example. -/
theorem test_abort :
    (after (exec .abort waiting)).map (fun s => (s.events, s.queue, s.state, s.terminated)) =
      some ([.timerCancel .init], [], .closed, true) := by decide +kernel
/-- V-K2, R316's example: the first of two. -/
theorem test_enqueue :
    (after (exec (.enqueue sackV) established)).map (fun s => (s.results, s.events, s.pendingData)) =
      some ([.bool true], [.pendingData], true) := by decide +kernel
/-- V-K2: the second emits nothing. -/
theorem test_enqueue_second :
    (after (exec (.enqueue sackV) { established with queue := [sackV], pendingData := true })).map
        (fun s => (s.results, s.events, s.queue)) = some ([.bool true], [], [sackV, sackV]) := by decide +kernel
/-- V-A2. -/
theorem test_writePacket :
    (after (exec (.writePacket [0x13, 0x89, 0x13, 0x88, 0x55, 0x66, 0x77, 0x88, 0xB5, 0x24, 0x5C, 0xD4])
        established)).map (fun s => (s.log, State.pc? s, s.results)) = some ([], some 12, []) := by decide +kernel
/-- V-A3. -/
theorem test_writePacket_tag :
    (after (exec (.writePacket [0x13, 0x89, 0x13, 0x88, 0x55, 0x66, 0x77, 0x89, 0xAE, 0x2D, 0x15, 0xA3])
        established)).map (fun s => (s.log, State.pc? s, s.results)) =
      some ([.tagMismatch 0x55667789], none, [.bool false]) := by decide +kernel
/-- V-K5, R329 (iii): one packet with both chunks. -/
theorem test_readPacket :
    (after (exec (.readPacket (zeros 40))
        { established with queue := [.cookieAck 0, .sack 0 ⟨1000, 0x00020000, [], []⟩], pendingData := true })).map
        (fun s => (s.tx.readBytes 0 s.wp, s.queue, s.pendingData, s.results)) =
      some (some [0x13, 0x88, 0x13, 0x89, 0xAA, 0xBB, 0xCC, 0xDD, 0x16, 0x45, 0xB3, 0x1D, 0x0B, 0, 0, 4,
        3, 0, 0, 0x10, 0, 0, 3, 0xE8, 0, 2, 0, 0, 0, 0, 0, 0], [], false, [.length 32]) := by decide +kernel
/-- V-K3: the INIT alone. -/
theorem test_readPacket_alone :
    (after (exec (.readPacket (zeros 64)) { established with queue := [initV, sackV], pendingData := true })).map
        (fun s => (s.wp, s.tx.readBytes 8 4, s.queue, s.pendingData)) =
      some (32, some [0x47, 0xA0, 0x85, 0x1C], [sackV], true) := by decide +kernel
/-- R24: Established is number 3. -/
theorem test_getState :
    (after (exec .getState established)).map (·.results) = some [.state .established] ∧
      AssocState.established.code = 3 := by decide +kernel
theorem test_getPendingData : (after (exec .getPendingData waiting)).map (·.results) = some [.bool true] := by
  decide +kernel
/-- V-T1, with the queue already drained. -/
theorem test_timerFireInit :
    (after (exec .timerFireInit { waiting with queue := [], pendingData := false })).map
        (fun s => (s.initRetransmissions, s.queue, s.timers.init, s.events)) =
      some (1, [initV], .armed 100, [.pendingData, .timerArm .init 100]) := by decide +kernel
/-- R421: the ceiling. -/
theorem test_timerFireInit_ceiling :
    (after (exec .timerFireInit { waiting with initRetransmissions := 10 })).map
        (fun s => (s.state, s.log, s.timers.init)) = some (.closed, [.retryCeiling .init], .idle) := by decide +kernel
/-- V-T2. -/
theorem test_timerFireCookie :
    (after (exec .timerFireCookie echoed)).map (fun s => (s.initRetransmissions, s.queue, s.events)) =
      some (1, [.cookieEcho 0 cookieBytes], [.pendingData, .timerArm .cookie 100]) := by decide +kernel
/-- V-D6 step (4). -/
theorem test_timerFireSack :
    (after (exec .timerFireSack delayed)).map
        (fun s => (s.queue, s.events, s.receivedTSNs, s.lastReceivedTSN, s.pendingAcknowledge)) =
      some ([.sack 0 ⟨6, 0x00020000, [], []⟩], [.pendingData], [], 6, false) := by decide +kernel
/-- V-T3: an idle slot. -/
theorem test_timerFireSack_idle : after (exec .timerFireSack established) = some established := by decide +kernel
/-- R323, V-D6 step (2): the timer is armed at the end of the packet. -/
theorem test_endOfPacket :
    (after (step (onChunk [] { delayed with timers := ⟨.idle, .idle, .idle⟩ }))).map
        (fun s => (s.timers.sack, s.events, s.results, s.ingress)) =
      some (.armed 100, [.timerArm .sack 100], [.bool true], none) := by decide +kernel

/-- Codes other than the defaults, as distinct as those (00_scope.md R12): DATA and INIT have each other's, and so have
two parameters. -/
def otherCodes : Codes := { rfc with ctData := 1, ctInit := 0, ptHostName := 5, ptIpv4Address := 11 }
/-- R12, R101: the same bytes under other codes are another instruction. -/
theorem test_other_codes :
    otherCodes.Distinct ∧ decode otherCodes (.chunk [0x01, 3, 0, 4]) = .ok (.data ⟨3, 4, []⟩) ∧
    decode otherCodes (.param [0, 5, 0, 5, 0x61]) = .ok (.hostName ⟨5, [0x61]⟩) := by
  unfold Codes.Distinct; exact ⟨by decide, rfl, rfl⟩
/-- R12: the block runs with its own codes, in what it logs too. -/
theorem test_other_codes_step :
    (after (step (onChunk [0x01, 3, 0, 0x11, 0, 0, 0, 5, 0, 0, 0, 0, 0, 0, 0, 0x33, 0x78, 0, 0, 0]
        { portsSet with params := { testParams with codes := otherCodes } }))).map (fun s => s.log) =
      some [.stateViolation .closed 1] := by decide +kernel

/-! ## Witnesses: states and operands that meet the hypotheses of each statement, clause by clause -/

/-- There are bodies of every length. -/
theorem body_of_length (n : Nat) : ∃ x : List Byte, x.length = n := ⟨zeros n, List.length_replicate⟩

/-- Longest and shortest bodies, one of each kind. -/
theorem witness_DecodeOfEncode : rfc.Distinct ∧
    (Instr.cookieAck ⟨0, 4, []⟩).wellFormed rfc = true ∧ (Instr.unknown 0x0F ⟨0, 4, []⟩).wellFormed rfc = true ∧
    (∃ x, (Instr.padding ⟨0, 65535, x⟩).wellFormed rfc = true) ∧
    (Instr.unrecognisedParameter 0x8001 ⟨7, [1, 2, 3]⟩).wellFormed rfc = true ∧ Instr.getState.wellFormed rfc = true := by
  obtain ⟨x, h⟩ := body_of_length 65531
  exact ⟨by unfold Codes.Distinct; decide, rfl, rfl, ⟨x, by simp [Instr.wellFormed, RawChunk.wellFormed, h]⟩, rfl, rfl⟩
theorem witness_EveryHeaderDecodes :
    (rawChunk 0 4 []).wellFormed = true ∧ (rawChunk 0 8 [1, 2, 3, 4]).wellFormed = true ∧
    (rawParam 4 []).wellFormed = true ∧ (rawParam 6 [1, 2]).wellFormed = true ∧
    (0x0F : Byte) ∉ rfc.chunkTypes ∧ (0x8001 : U16) ∉ rfc.paramTypes := by decide
theorem witness_SpaceReadsBackAndIsCanonical :
    (⟨4, [(1, 7)]⟩ : Space).wf = true ∧ 2 + [5, 6].length ≤ (⟨4, [(1, 7)]⟩ : Space).size ∧
    (⟨4, [(1, 7)]⟩ : Space).size < 3 + [5, 6].length ∧ (⟨4, []⟩ : Space).size < 4 + 1 ∧
    Memory.wf [(1, 7)] = true ∧ ∀ a, Memory.read [(1, 7)] a = Memory.read [(1, 7)] a :=
  ⟨by decide, by decide, by decide, by decide, by decide, fun _ => rfl⟩
/-- Room for exactly 1, 2 and 4 bytes, and for exactly the padding. -/
theorem witness_ReaderReadsWhatWriterWrote :
    WriterOk ⟨⟨4, []⟩, 0, 4, 3⟩ ∧ 1 ≤ (⟨⟨4, []⟩, 0, 4, 3⟩ : Writer).room ∧
    padlen (⟨⟨4, []⟩, 0, 4, 3⟩ : Writer).w ≤ (⟨⟨4, []⟩, 0, 4, 3⟩ : Writer).room ∧
    WriterOk ⟨⟨8, []⟩, 4, 4, 2⟩ ∧ 2 ≤ (⟨⟨8, []⟩, 4, 4, 2⟩ : Writer).room ∧
    WriterOk (Writer.ofSpace ⟨4, []⟩) ∧ 4 ≤ (Writer.ofSpace ⟨4, []⟩).room ∧
    [1, 2, 3, 4].length ≤ (Writer.ofSpace ⟨4, []⟩).room := by unfold WriterOk; decide
theorem witness_PatchLittleEndian :
    WriterOk ⟨⟨4, []⟩, 0, 4, 4⟩ ∧ 0 + 4 ≤ (⟨⟨4, []⟩, 0, 4, 4⟩ : Writer).w ∧
    (⟨⟨4, []⟩, 0, 4, 4⟩ : Writer).w < 1 + 4 := by unfold WriterOk; decide
/-- The least record and the longest DATA (V-S3). -/
theorem witness_ChunkRoundTrip : rfc.Distinct ∧
    (Chunk.cookieAck 0).wf rfc = true ∧ (⟨4, []⟩ : Space).wf = true ∧ (⟨4, []⟩ : Space).size = (Chunk.cookieAck 0).size rfc ∧
    ∃ x, (Chunk.data 0 ⟨0, 0, 0, 0, x⟩).wf rfc = true ∧ (⟨65536, []⟩ : Space).wf = true ∧
      (⟨65536, []⟩ : Space).size = (Chunk.data 0 ⟨0, 0, 0, 0, x⟩).size rfc := by
  obtain ⟨x, h⟩ := body_of_length 65519
  exact ⟨by unfold Codes.Distinct; decide, rfl, rfl, rfl, x, by simp [Chunk.wf, h], rfl, by simp [Chunk.size, Chunk.length, pad4, Config.ALIGN, h]⟩
theorem witness_SerialisedSize : ∃ x, (Chunk.heartbeat 0 x).wf rfc = true ∧ (Chunk.heartbeat 0 x).length rfc = 65535 := by
  obtain ⟨x, h⟩ := body_of_length 65527
  exact ⟨x, by simp [Chunk.wf, h], by simp [Chunk.length, h]⟩
theorem witness_SerialiseWritesExactly :
    WriterOk (Writer.ofSpace ⟨12, []⟩) ∧ (Chunk.unknown 0 0 []).wf rfc = false ∧
    (Writer.ofSpace ⟨12, []⟩).room < sackV.size rfc ∧ (Chunk.cookieEcho 0 cookieBytes).wf rfc = true ∧
    (Chunk.cookieEcho 0 cookieBytes).size rfc ≤ (Writer.ofSpace ⟨12, []⟩).room := by unfold WriterOk; decide
theorem witness_ParameterStoring :
    [(1 : Byte), 2, 3].length ≠ 4 ∧ [(1 : Byte), 2, 3, 4].length = 4 ∧ (zeros 16).length = 16 ∧
    (7 : U16) ∉ [rfc.ptIpv4Address, rfc.ptIpv6Address, rfc.ptCookiePreservative, rfc.ptHostName,
      rfc.ptSupportedExtensions, rfc.ptForwardTSNSupported] ∧
    (9 : U16) ∉ [rfc.ptIpv4Address, rfc.ptIpv6Address, rfc.ptStateCookie, rfc.ptHostName, rfc.ptSupportedExtensions,
      rfc.ptForwardTSNSupported] ∧
    ((2 : U16) ≠ rfc.ptHeartbeatInfo ∨ (none : Option (List Byte)) ≠ none) ∧
    ((1 : U16) ≠ rfc.ptHeartbeatInfo ∨ some ([] : List Byte) ≠ none) ∧ rfc.Distinct := by
  unfold Codes.Distinct; decide
/-- A header alone fits in 12 bytes; a packet of 32 bytes is produced. -/
theorem witness_PacketHeaderLaws :
    (⟨12, []⟩ : Space).wf = true ∧ 12 ≤ (⟨12, []⟩ : Space).size ∧
    ∃ s', exec (.readPacket (zeros 32)) waiting = .next s' ∧ s'.wp ≠ 0 := by
  refine ⟨rfl, by decide, ?_⟩
  have h : (after (exec (.readPacket (zeros 32)) waiting)).map (·.wp) = some 32 := by decide +kernel
  cases e : exec (.readPacket (zeros 32)) waiting with
  | next t => exact ⟨t, rfl, by simp [e, after] at h; simp [h]⟩
  | fault _ => simp [e, after] at h
  | refused _ => simp [e, after] at h
theorem witness_WrapFirstCall : 1 ≤ 1 ∧ 1 < 64 ∧ 1 ≤ 63 ∧ 63 < 64 ∧ 1 ≤ 32 ∧ 32 < 64 := by decide
/-- Cases (a), (b) and (c), each at its boundary, N = 32 (R165). -/
theorem witness_WrapCases :
    (0x80000001 = 0 * 2 ^ 32 + 0x80000001 ∧ 0 + 1 < 2 ^ (64 - 32)) ∧
    (0 < 0x80000001 ∧ 0x80000001 - 0 > 2 ^ (32 - 1)) ∧
    (0x100000005 = 1 * 2 ^ 32 + 5 ∧ 1 + 1 < 2 ^ (64 - 32)) ∧
    (5 < 0x80000006 ∧ 0x80000006 - 5 > 2 ^ (32 - 1) ∧ 0 < 1) ∧
    (¬ (0 < 0x80000000 ∧ 0x80000000 - 0 > 2 ^ (32 - 1)) ∧
      ¬ (0x80000000 < 0 ∧ 0 - 0x80000000 > 2 ^ (32 - 1) ∧ 0 < 0)) := by decide
/-- V-W2's sequence across the wrap, for a counter of 8 bits. -/
theorem witness_WrapMonotonic :
    [(100 : BitVec 8), 228, 255, 0, 1].length * 2 ^ (8 - 1) + 2 ^ 8 ≤ 2 ^ 64 ∧
    ∀ (k : Nat) (a b : BitVec 8), [(100 : BitVec 8), 228, 255, 0, 1][k]? = some a →
      [(100 : BitVec 8), 228, 255, 0, 1][k + 1]? = some b →
      0 < (b - a).toNat ∧ (b - a).toNat ≤ 2 ^ (8 - 1) ∧ (b.toNat < a.toNat → (b - a).toNat < 2 ^ (8 - 1)) := by
  refine ⟨by decide, fun k a b ha hb => ?_⟩
  rcases k with _ | _ | _ | _ | _ | k <;> simp at ha hb <;> subst ha <;> subst hb <;> decide
theorem witness_TrackerInsertion : [(5 : U64), 5, 7].Pairwise (fun a b => a.toNat ≤ b.toNat) := by decide
/-- V-D5. -/
theorem witness_AcknowledgeWalkReports :
    [(10 : U64), 11, 11, 14].Pairwise (fun a b => a.toNat ≤ b.toNat) ∧ (14 : U64) ∈ [(10 : U64), 11, 11, 14] := by decide
/-- V-D8, and a list one longer than a SACK holds. -/
theorem witness_SackLimits :
    (5 : U64).toNat ≤ (65541 : U64).toNat ∧ (65541 : U64).toNat - (5 : U64).toNat > 65535 ∧
    ∃ g : List (U16 × U16), (truncateSack g []).1 ≠ g := by
  refine ⟨by decide, by decide, List.replicate 16380 (2, 2), ?_⟩
  have h : (List.replicate 16380 ((2 : U16), (2 : U16))).length = 16380 := List.length_replicate
  generalize List.replicate 16380 ((2 : U16), (2 : U16)) = g at h
  intro e
  have := congrArg List.length e
  simp only [truncateSack, List.length_take, Config.SACK_MAX_ENTRIES] at this
  omega
theorem witness_AcknowledgeEffect :
    testState.wrapper.tsnBits = 32 ∧ (testState.lastReceivedTSNValid = false ∧ testState.receivedTSNs = []) ∧
    (delayed.lastReceivedTSNValid = true ∧ 5 = delayed.lastReceivedTSN ∧ [6] = delayed.receivedTSNs) ∧
    ({ established with receivedTSNs := [5, 5, 7] } : State).lastReceivedTSNValid = false := by decide
theorem witness_PortsSetBeforeHandshake :
    testState.ingress = none ∧ testState.terminated = false ∧ testState.state = .closed ∧
    testState.localVerificationTag = 0 ∧ waiting.ingress = none ∧
    ¬ (waiting.terminated = false ∧ waiting.state = .closed ∧ waiting.localVerificationTag = 0) := by decide
theorem witness_AssociateOpens :
    portsSet.ingress = none ∧ portsSet.terminated = false ∧ portsSet.state = .closed ∧ (0x11223344 : U32) ≠ 0 ∧
    ({ portsSet with draws := [0, 0x11223344, 100] } : State).draws = List.replicate 1 0 ++ 0x11223344 :: 100 :: [] ∧
    waiting.ingress = none ∧ waiting.state ≠ .closed ∧ aborted.terminated = true := by decide
theorem witness_AbortTerminates :
    aborted.ingress = none ∧ aborted.terminated = true ∧ waiting.ingress = none ∧ waiting.terminated = false := by decide
/-- `QUEUE_MAX` = 1: full at one record, not full at none. -/
theorem witness_EnqueueRule :
    aborted.terminated = true ∧ established.terminated = false ∧ (Chunk.unknown 0 0 []).wf rfc = false ∧
    sackV.wf rfc = true ∧
    (let s : State := { waiting with params := { testParams with queueMax := some 1 } }
     s.terminated = false ∧ s.params.queueMax = some 1 ∧ 1 ≤ s.queue.length) ∧
    (let s : State := { established with params := { testParams with queueMax := some 1 } }
     s.terminated = false ∧ ∀ q, s.params.queueMax = some q → s.queue.length < q) ∧
    established.ingress = none :=
  ⟨rfl, rfl, rfl, rfl, ⟨rfl, rfl, by decide⟩, ⟨rfl, fun q h => by simp at h; subst h; decide⟩, rfl⟩
/-- 11 bytes; the packets of V-A3 to V-A6; the checksum compared (V-A2 holds the right one). -/
theorem witness_HeaderAcceptance :
    established.ingress = none ∧ established.terminated = false ∧ aborted.terminated = true ∧ (zeros 11).length < 12 ∧
    ofBe2 0x13 0x8A ≠ established.remotePort ∧ ofBe2 0x13 0x8A ≠ established.localPort ∧
    ofBe2 0x13 0x89 = established.remotePort ∧ ofBe2 0x13 0x88 = established.localPort ∧
    ofBe4 0x55 0x66 0x77 0x89 ≠ established.localVerificationTag ∧
    ofBe4 0x55 0x66 0x77 0x88 = established.localVerificationTag ∧
    ({ established with params := { testParams with verifyRxChecksum := true } } : State).params.verifyRxChecksum =
      true ∧
    established.params.verifyRxChecksum = false ∧
    crc32c ([0x13, 0x89, 0x13, 0x88, 0x55, 0x66, 0x77, 0x88, 0, 0, 0, 0] ++ []) = ofBe4 0xD4 0x5C 0x24 0xB5 ∧
    crc32c ([0x13, 0x89, 0x13, 0x88, 0x55, 0x66, 0x77, 0x88, 0, 0, 0, 0] ++ []) ≠ ofBe4 0xD4 0x5C 0x24 0xB4 := by
  decide +kernel
/-- V-K4: 27 bytes do not hold the SACK, 28 do. -/
theorem witness_ReadPacketNothing :
    waiting.ingress = none ∧ aborted.terminated = true ∧ established.queue = [] ∧
    ({ established with queue := [sackV] } : State).queue = sackV :: [] ∧ (zeros 27).length < 12 + sackV.size rfc := by
  decide +kernel
theorem witness_ReadPacketEgress :
    let s : State := { established with queue := [sackV], pendingData := true }
    s.ingress = none ∧ s.terminated = false ∧ (∀ r ∈ s.queue, r.wf s.params.codes = true) ∧ s.queue = sackV :: [] ∧
      12 + sackV.size rfc ≤ (zeros 28).length := by decide +kernel

/-- The terminated block keeps the invariant. -/
theorem aborted_inv : OperationInv aborted := by
  constructor <;> simp [aborted, testState, State.reset, Slot.isArmed, Config.TSN_BITS, Config.EXT_BITS]
/-- The waiting block keeps the invariant. -/
theorem waiting_inv : OperationInv waiting := by
  constructor <;> simp [waiting, portsSet, testState, State.reset, Slot.isArmed, TrackerAbovePoint, Config.TSN_BITS,
    Config.EXT_BITS]
/-- So does the block with a delayed acknowledgement. -/
theorem delayed_inv : OperationInv delayed := by
  constructor <;> simp [delayed, established, portsSet, testState, State.reset, Slot.isArmed, TrackerAbovePoint]

theorem witness_StatusCommands : aborted.ingress = none ∧ OperationInv aborted ∧ aborted.terminated = true :=
  ⟨rfl, aborted_inv, rfl⟩
theorem witness_TerminatedCommands : OperationInv aborted ∧ aborted.terminated = true := ⟨aborted_inv, rfl⟩
/-- One below the ceiling and at it. -/
theorem witness_InitTimerFire :
    waiting.ingress = none ∧ waiting.timers.init = .armed 100 ∧ waiting.state = .cookieWait ∧
    ({ waiting with initRetransmissions := 9 } : State).initRetransmissions < waiting.params.maxInitRetransmits ∧
    waiting.params.maxInitRetransmits ≤ ({ waiting with initRetransmissions := 10 } : State).initRetransmissions := by
  decide
theorem witness_CookieTimerFire :
    echoed.ingress = none ∧ echoed.timers.cookie = .armed 100 ∧ echoed.state = .cookieEchoed ∧
    ({ echoed with initRetransmissions := 9 } : State).initRetransmissions < echoed.params.maxInitRetransmits ∧
    echoed.params.maxInitRetransmits ≤ ({ echoed with initRetransmissions := 10 } : State).initRetransmissions := by
  decide
theorem witness_SackTimerFire :
    delayed.ingress = none ∧ delayed.timers.sack = .armed 100 ∧ delayed.state = .established ∧
    ({ waiting with timers := ⟨.idle, .idle, .armed 100⟩ } : State).timers.sack = .armed 100 ∧
    ({ waiting with timers := ⟨.idle, .idle, .armed 100⟩ } : State).state ≠ .established := by decide
theorem witness_FiresThatFindNothing :
    established.ingress = none ∧ established.timers = ⟨.idle, .idle, .idle⟩ ∧
    ({ established with timers := ⟨.armed 100, .armed 100, .idle⟩ } : State).state ≠ .cookieWait ∧
    ({ established with timers := ⟨.armed 100, .armed 100, .idle⟩ } : State).state ≠ .cookieEchoed ∧
    ({ waiting with timers := ⟨.idle, .idle, .armed 100⟩ } : State).state ≠ .established := by decide
/-- SHUTDOWN with a body of 4 bytes, and of 2. -/
theorem witness_WholeBodyChunk :
    (Instr.shutdown ⟨0, 8, [1, 2, 3, 4]⟩).chunkOperands rfc = some (7, ⟨0, 8, [1, 2, 3, 4]⟩) ∧
    (Instr.shutdown ⟨0, 8, [1, 2, 3, 4]⟩).wellFormed rfc = true ∧ established.params.codes = rfc ∧ rfc.Distinct ∧
    Instr.shutdown ⟨0, 8, [1, 2, 3, 4]⟩ ∉ [.init ⟨0, 8, [1, 2, 3, 4]⟩, .initAck ⟨0, 8, [1, 2, 3, 4]⟩,
      .heartbeat ⟨0, 8, [1, 2, 3, 4]⟩, .heartbeatAck ⟨0, 8, [1, 2, 3, 4]⟩] ∧
    (onChunk [7, 0, 0, 8, 1, 2, 3, 4] established).ingress = some ⟨rxOf [7, 0, 0, 8, 1, 2, 3, 4], 12, none⟩ ∧
    parseBody rfc 7 0 [1, 2, 3, 4] = some (.shutdown 0 0x01020304) ∧
    (Instr.shutdown ⟨0, 6, [0, 0]⟩).wellFormed rfc = true ∧ parseBody rfc 7 0 [0, 0] = none := by
  unfold Codes.Distinct; decide +kernel
/-- Bodies of 15, 16 and 17 bytes, of 3 and of 4. -/
theorem witness_ListChunk :
    (∀ n ∈ [3, 4, 15, 16, 17], RawChunk.wellFormed ⟨0, BitVec.ofNat 16 (4 + n), zeros n⟩ = true) ∧
    (zeros 15).length < 16 ∧ 16 ≤ (zeros 16).length ∧ 16 ≤ (zeros 17).length ∧ (zeros 3).length < 4 ∧
    4 ≤ (zeros 4).length ∧ (onChunk [] portsSet).ingress = some ⟨rxOf [], 12, none⟩ := by decide +kernel
/-- V-O10: length 3; a length one beyond the packet. -/
theorem witness_InvalidChunkLength :
    (onChunk [0, 3, 0, 3] established).ingress = some ⟨rxOf [0, 3, 0, 3], 12, none⟩ ∧
    12 + 4 ≤ (rxOf [0, 3, 0, 3]).size ∧
    (ofBe2 ((rxOf [0, 3, 0, 3]).byteAt 14) ((rxOf [0, 3, 0, 3]).byteAt 15)).toNat < 4 ∧
    (rxOf [0, 3, 0, 5]).size - 12 < (ofBe2 ((rxOf [0, 3, 0, 5]).byteAt 14) ((rxOf [0, 3, 0, 5]).byteAt 15)).toNat := by
  decide +kernel
/-- A SACK with one gap block and one duplicate; a body too short for its fixed part; a body of 4 and of 0 bytes. -/
theorem witness_ChunksIgnoredInEveryState :
    (onChunk [] established).ingress = some ⟨rxOf [], 12, none⟩ ∧
    RawChunk.wellFormed ⟨0, 24, [0, 0, 0, 5, 0, 2, 0, 0, 0, 1, 0, 1, 0, 2, 0, 2, 0, 0, 0, 5]⟩ = true ∧
    [(0 : Byte), 0, 0, 5, 0, 2, 0, 0, 0, 1, 0, 1, 0, 2, 0, 2, 0, 0, 0, 5] =
      be4 5 ++ (be4 0x00020000 ++ (be2 1 ++ (be2 1 ++ [0, 2, 0, 2, 0, 0, 0, 5]))) ∧
    [(0 : Byte), 2, 0, 2, 0, 0, 0, 5].length = 4 * (1 : U16).toNat + 4 * (1 : U16).toNat ∧
    RawChunk.wellFormed ⟨0, 15, zeros 11⟩ = true ∧ (zeros 11).length < 12 ∧
    RawChunk.wellFormed ⟨0, 8, zeros 4⟩ = true ∧ RawChunk.wellFormed ⟨0, 4, []⟩ = true := by decide +kernel
/-- A SACK in any state; an INIT, a DATA and an INIT-ACK where they have no row; an INIT-ACK without its cookie. -/
theorem witness_PairsWithoutARowIgnored :
    (∀ f r l, sackV = .init f r l → established.state ≠ .closed) ∧
    (∀ f r l, initV = .init f r l → established.state ≠ .closed) ∧
    (∀ f r, Chunk.data 0 ⟨5, 0, 0, 0, []⟩ = .data f r → waiting.state ≠ .established) ∧
    (∀ f r ck, Chunk.initAck 0 initAckFixed none = .initAck f r ck → waiting.state = .cookieWait → ck = none) ∧
    (∀ f x, Chunk.cookieEcho 0 [] = .cookieEcho f x → waiting.state ≠ .closed) ∧
    (∀ f, Chunk.cookieAck 0 = .cookieAck f → waiting.state ≠ .cookieEchoed) :=
  ⟨by simp [sackV], fun _ _ _ _ => by decide, fun _ _ _ => by decide,
    fun _ _ _ h _ => by simp only [Chunk.initAck.injEq] at h; exact h.2.2.symm, fun _ _ _ => by decide,
    fun _ _ => by decide⟩
theorem witness_InitInClosed :
    portsSet.state = .closed ∧ (0x55667788 : U32) ≠ 0 ∧
    ({ portsSet with draws := [0, 0x55667788, 0x200] } : State).draws = List.replicate 1 0 ++ 0x55667788 :: 0x200 :: [] := by
  decide
theorem witness_InitAckInCookieWait : waiting.state = .cookieWait := rfl
theorem witness_CookieEchoEstablishes :
    RawChunk.wellFormed ⟨0, 10, cookieBytes⟩ = true ∧ (onChunk [] portsSet).ingress = some ⟨rxOf [], 12, none⟩ ∧
    (onChunk [] portsSet).state = .closed ∧ (onChunk [] established).state ≠ .closed := by decide
theorem witness_CookieAckEstablishes :
    RawChunk.wellFormed ⟨0, 4, []⟩ = true ∧ RawChunk.wellFormed ⟨0, 5, [1]⟩ = true ∧
    (onChunk [] echoed).ingress = some ⟨rxOf [], 12, none⟩ ∧ (onChunk [] echoed).state = .cookieEchoed ∧
    (onChunk [] established).state ≠ .cookieEchoed := by decide
/-- A body of 11 bytes, and of exactly 12. -/
theorem witness_DataInEstablished :
    RawChunk.wellFormed ⟨3, 15, zeros 11⟩ = true ∧ (zeros 11).length < 12 ∧
    RawChunk.wellFormed ⟨3, 16, [0, 0, 0, 5, 0, 0, 0, 0, 0, 0, 0, 0x33]⟩ = true ∧
    [(0 : Byte), 0, 0, 5, 0, 0, 0, 0, 0, 0, 0, 0x33] = be4 5 ++ (be2 0 ++ (be2 0 ++ (be4 0x33 ++ []))) ∧
    (onChunk [] established).ingress = some ⟨rxOf [], 12, none⟩ ∧ (onChunk [] established).state = .established ∧
    (onChunk [] waiting).state ≠ .established ∧
    (onChunk [] established).wrapper = ⟨32, 64, 2147483648, ⟨0, 0, 0⟩⟩ := by decide +kernel
/-- A parameter that leaves the list open, one that uses it up without its padding, and one that cannot be stored. -/
theorem witness_ParameterStep :
    (Instr.hostName ⟨5, [0x61]⟩).paramOperands rfc = some (11, ⟨5, [0x61]⟩) ∧ (Instr.hostName ⟨5, [0x61]⟩).wellFormed rfc = true ∧
    (let q : ParamList := ⟨.init 0 initFixed none, Reader.ofBytes [0, 0x0B, 0, 5, 0x61, 0, 0, 0, 0, 0x0B, 0, 4], 40⟩
     8 < q.reader.rest.length ∧ q.reader.p % 4 = 0) ∧ rfc = portsSet.params.codes ∧ rfc.Distinct ∧
    8 = pad4 (4 + [(0x61 : Byte)].length) ∧
    (let q : ParamList := ⟨.init 0 initFixed none, Reader.ofBytes [0, 0x0B, 0, 5, 0x61], 40⟩
     4 + [(0x61 : Byte)].length ≤ q.reader.rest.length ∧ q.reader.rest.length ≤ 8) ∧
    storeParam rfc 11 [0x61] (.init 0 initFixed none) = some (.init 0 { initFixed with hostName := some [0x61] } none) ∧
    storeParam rfc 5 [1, 2, 3, 4, 5] (.init 0 initFixed none) = none := by
  unfold Codes.Distinct; decide +kernel
/-- V-H7: `plength` 3, `plength` one beyond the list, 1 stray byte and 3. -/
theorem witness_ParameterListErrors :
    (Instr.hostName ⟨3, []⟩).paramOperands rfc = some (11, ⟨3, []⟩) ∧ RawParam.wellFormed ⟨3, []⟩ = false ∧
    (onParam (.init 0 initFixed none) [0, 0x0B, 0, 5] portsSet).ingress =
      some ⟨Space.ofBytes (zeros 40), 12, some ⟨.init 0 initFixed none, Reader.ofBytes [0, 0x0B, 0, 5], 40⟩⟩ ∧
    (ofBe2 0 3).toNat < 4 ∧ 4 + ([] : List Byte).length < (ofBe2 0 5).toNat ∧
    1 ≤ (Reader.ofBytes [0]).rest.length ∧ (Reader.ofBytes [0, 0x0B, 0]).rest.length ≤ 3 := by decide +kernel
theorem witness_StepRunsDecoded :
    (let s : State := { testState with port := [⟨3, 0, Chunk.blank, []⟩, ⟨0x0A, 0, Chunk.blank, []⟩] }
     s.ingress = none ∧ s.port = ⟨3, 0, Chunk.blank, []⟩ :: [⟨0x0A, 0, Chunk.blank, []⟩]) ∧
    decode rfc (.command ⟨3, 0, Chunk.blank, []⟩) = .ok .associate ∧
    decode rfc (.command ⟨0x0A, 0, Chunk.blank, []⟩) = .error (.unknownCommand 0x0A) ∧
    (testState.ingress = none ∧ testState.port = []) ∧
    ((onChunk [8, 0, 0, 4] established).ingress = some ⟨rxOf [8, 0, 0, 4], 12, none⟩ ∧
      12 + 4 ≤ (rxOf [8, 0, 0, 4]).size ∧
      decode rfc (.chunk ((rxOf [8, 0, 0, 4]).mem.readBytes 12 ((rxOf [8, 0, 0, 4]).size - 12))) =
        .ok (.shutdownAck ⟨0, 4, []⟩)) ∧
    (4 ≤ (Reader.ofBytes [0, 0x0B, 0, 4]).rest.length ∧
      decode rfc (.param (Reader.ofBytes [0, 0x0B, 0, 4]).rest) = .ok (.hostName ⟨4, []⟩)) :=
  ⟨⟨rfl, rfl⟩, rfl, rfl, ⟨rfl, rfl⟩, ⟨rfl, by decide, rfl⟩, by decide, rfl⟩
theorem witness_PlacedWordRuns :
    decodeTableWord 8 0x12 = some .timerFireSack ∧ Instr.timerFireSack.commandCode ≠ none ∧
    decodeTableWord 32 0x0B000004 = some (.cookieAck ⟨0, 4, []⟩) ∧ (Instr.cookieAck ⟨0, 4, []⟩).commandCode = none ∧
    decodeTableWord 32 0x000B0004 = some (.hostName ⟨4, []⟩) :=
  ⟨rfl, by decide, rfl, rfl, rfl⟩
/-- 0 and 3 bytes left; nothing pending, an acknowledgement due now, a timer armed and one to arm. -/
theorem witness_EndOfPacket :
    (onChunk [] established).ingress = some ⟨rxOf [], 12, none⟩ ∧ (rxOf []).size < 12 + 4 ∧
    (rxOf [1, 2, 3]).size < 12 + 4 ∧ (onChunk [] established).pendingAcknowledge = false ∧
    (let s : State := onChunk [] { delayed with pendingAcknowledgeTimeout := 0 }
     s.pendingAcknowledge = true ∧ s.pendingAcknowledgeTimeout = 0) ∧
    ((onChunk [] delayed).pendingAcknowledge = true ∧ (onChunk [] delayed).pendingAcknowledgeTimeout ≠ 0 ∧
      (onChunk [] delayed).timers.sack ≠ .idle) ∧
    (let s : State := onChunk [] { delayed with timers := ⟨.idle, .idle, .idle⟩ }
     s.pendingAcknowledge = true ∧ s.pendingAcknowledgeTimeout ≠ 0 ∧ s.timers.sack = .idle) := by decide +kernel
theorem witness_ChunkStepsAreOneOperation :
    (onChunk [8, 0, 0, 4] established).ingress = some ⟨rxOf [8, 0, 0, 4], 12, none⟩ ∧
    12 + 4 ≤ (rxOf [8, 0, 0, 4]).size := by decide
theorem witness_WritePacketStepsAreOneOperation :
    (onChunk [8, 0, 0, 4] established).ingress = some ⟨rxOf [8, 0, 0, 4], 12, none⟩ := rfl

/-- A step of the idle block. -/
theorem step_idle_block : step aborted = .next aborted := rfl
/-- A step inside a packet: the chunk is ignored and the cursor moves. -/
theorem step_in_packet :
    step (onChunk [8, 0, 0, 4] waiting) =
      .next { (onChunk [8, 0, 0, 4] waiting) with
        log := [.stateViolation .cookieWait 8], ingress := some ⟨rxOf [8, 0, 0, 4], 16, none⟩ } := rfl

/-- DATA 5 at the cumulative point 5, its acknowledgement delayed (R358, R323); Abort is the next command. -/
def duplicatePending : State := { delayed with receivedTSNs := [5], port := [⟨4, 0, Chunk.blank, []⟩] }
theorem duplicatePending_inv : OperationInv duplicatePending := by
  constructor <;> simp [duplicatePending, delayed, established, portsSet, testState, State.reset, Slot.isArmed,
    TrackerAbovePoint]
/-- 46 R314, 10 R45, 70 R452: Abort clears the flag and keeps the multiset and the point. -/
theorem test_abort_keeps_multiset :
    (after (step duplicatePending)).map (fun s => (s.terminated, s.pendingAcknowledge, s.lastReceivedTSN, s.receivedTSNs)) =
      some (true, false, 5, [5]) := by decide
/-- So R59 (c) as written does not follow from the rules it is derived from: it holds before that Abort and not after
(log 16). -/
theorem abort_breaks_clause_c :
    Rule59 duplicatePending ∧
    ∃ t, step duplicatePending = .next t ∧ t.terminated = true ∧ OperationInv t ∧ ¬ TrackerAbovePoint t := by
  refine ⟨duplicatePending_inv.rule59 rfl, _, rfl, rfl, ?_, fun h => ?_⟩
  · constructor <;> simp [duplicatePending, delayed, established, portsSet, testState, State.reset, Slot.isArmed,
      State.cancel, State.emit, State.setTimer, State.timer]
  · exact absurd (h rfl rfl 5 (by decide)) (by decide)

/-- No other meaning of Abort would do: whatever it is, if it clears the flag (46 R314), keeps the multiset (10 R45, 70
R452) and keeps the cumulative point with its valid bit (10 R23, 70 R452), clause (c) is false after it. -/
theorem clause_c_excluded_for_every_abort (abort : State → State) (s : State)
    (flag : (abort s).pendingAcknowledge = false) (multiset : (abort s).receivedTSNs = s.receivedTSNs)
    (valid : (abort s).lastReceivedTSNValid = s.lastReceivedTSNValid)
    (point : (abort s).lastReceivedTSN = s.lastReceivedTSN) (hs : s = duplicatePending) :
    ¬ TrackerAbovePoint (abort s) := by
  subst hs
  intro h
  have above := h (valid.trans rfl) flag 5 (by rw [multiset]; decide)
  rw [point] at above
  exact absurd above (by decide)

/-- A step inside a packet; an Abort with nothing pending; and for the last clause an Abort with one pending. -/
theorem witness_StepKeepsOperationInv :
    (OperationInv (onChunk [8, 0, 0, 4] waiting) ∧ ∃ t, step (onChunk [8, 0, 0, 4] waiting) = .next t ∧
      t.terminated = waiting.terminated ∧ Rule59 (onChunk [8, 0, 0, 4] waiting)) ∧
    (let s : State := { waiting with port := [⟨4, 0, Chunk.blank, []⟩] }
     (∃ t, step s = .next t ∧ t.terminated = true) ∧ s.pendingAcknowledge = false ∧ Rule59 s) ∧
    (OperationInv duplicatePending ∧ duplicatePending.terminated = false ∧
      ∃ t, step duplicatePending = .next t ∧ t.terminated = true) := by
  have packet : OperationInv (onChunk [8, 0, 0, 4] waiting) := by
    constructor <;> simp [onChunk, State.atChunk, waiting, portsSet, testState, State.reset, Slot.isArmed,
      TrackerAbovePoint, Config.TSN_BITS, Config.EXT_BITS]
  have command : OperationInv { waiting with port := [⟨4, 0, Chunk.blank, []⟩] } := by
    constructor <;> simp [waiting, portsSet, testState, State.reset, Slot.isArmed, TrackerAbovePoint, Config.TSN_BITS,
      Config.EXT_BITS]
  exact ⟨⟨packet, _, step_in_packet, rfl, packet.rule59 rfl⟩, ⟨⟨_, rfl, rfl⟩, rfl, command.rule59 rfl⟩,
    duplicatePending_inv, rfl, _, rfl, rfl⟩
theorem witness_StepKeepsMemoryInv :
    MemoryInv (onChunk [8, 0, 0, 4] waiting) ∧ ∃ t, step (onChunk [8, 0, 0, 4] waiting) = .next t := by
  refine ⟨⟨fun g h => ?_, rfl⟩, _, step_in_packet⟩
  cases h; rfl
theorem witness_StepKeepsCursorInv :
    CursorInv (onChunk [8, 0, 0, 4] waiting) ∧ ∃ t g', step (onChunk [8, 0, 0, 4] waiting) = .next t ∧
      t.ingress = some g' := by
  refine ⟨⟨fun g h => ?_, fun g q h hq => ?_⟩, _, _, step_in_packet, rfl⟩
  · cases h; unfold Ingress.cursorOk; decide
  · cases h; cases hq
theorem witness_StepKeepsQueueTrackerState :
    QueueInv (onChunk [8, 0, 0, 4] waiting) ∧ TrackerInv (onChunk [8, 0, 0, 4] waiting) ∧
    LegalState (onChunk [8, 0, 0, 4] waiting) ∧ ∃ t, step (onChunk [8, 0, 0, 4] waiting) = .next t := by
  refine ⟨⟨fun c h => ?_, fun m h => ?_⟩, ?_, ?_, _, step_in_packet⟩
  · simp [onChunk, State.atChunk, waiting] at h; subst h; rfl
  · simp [onChunk, State.atChunk, waiting, portsSet, testState, testParams] at h
  · simp [TrackerInv, onChunk, State.atChunk, waiting, portsSet, testState, State.reset]
  · unfold LegalState; decide
theorem witness_PortsImmutableOnceBegun :
    ActiveOpenTagged (onChunk [8, 0, 0, 4] waiting) ∧ HandshakeBegun (onChunk [8, 0, 0, 4] waiting) ∧
    ∃ t, step (onChunk [8, 0, 0, 4] waiting) = .next t :=
  ⟨fun _ => by decide, .inr (.inl (by decide)), _, step_in_packet⟩
theorem witness_StepKeepsHistory :
    (∃ t, step (onChunk [8, 0, 0, 4] waiting) = .next t) ∧ (step aborted = .next aborted ∧ aborted.terminated = true) ∧
    ∃ t, step delayed = .next t ∧ delayed.lastReceivedTSNValid = true :=
  ⟨⟨_, step_in_packet⟩, ⟨step_idle_block, rfl⟩, delayed, rfl, rfl⟩
/-- Each entry of the transition table is taken by one instruction. -/
theorem witness_TransitionRelation :
    (after (exec .associate { portsSet with draws := [1, 2] })).map (·.state) = some .cookieWait ∧
    (after (exec (.cookieEcho ⟨0, 4, []⟩) (onChunk [10, 0, 0, 4] portsSet))).map (·.state) = some .established ∧
    (after (exec (.stateCookie ⟨4, []⟩) (onParam (.initAck 0 initAckFixed none) [0, 7, 0, 4] waiting))).map
        (fun s => (s.state, State.pc? s)) = some (.cookieEchoed, some 40) ∧
    (Instr.stateCookie ⟨4, []⟩).paramOperands rfc = some (7, ⟨4, []⟩) ∧ waiting.params.codes = rfc ∧
    waiting.params.maxInitRetransmits ≤ 10 ∧ echoed.params.maxInitRetransmits ≤ 10 ∧
    (after (exec (.cookieAck ⟨0, 4, []⟩) (onChunk [11, 0, 0, 4] echoed))).map (·.state) = some .established ∧
    (after (exec .timerFireInit { waiting with initRetransmissions := 10 })).map (·.state) = some .closed ∧
    (after (exec .timerFireCookie { echoed with initRetransmissions := 10 })).map (·.state) = some .closed ∧
    (after (exec .abort established)).map (fun s => (s.state, s.terminated)) = some (.closed, true) := by
  decide +kernel

end Sys2Proof.Tests
end

section
/-! PROOFS. The buffer codec (40_buffer_codec.md R142): what the putters write, the getters read back; `putpad`. -/

namespace Sys2Proof

/-- The one-byte image of a u8 (R132) reads back, with nothing left. -/
theorem Reader.get1_singleton (v : Byte) : (Reader.ofBytes [v]).get1 = some (v, ⟨1, []⟩) := rfl

theorem Reader.get2_be2 (v : U16) : (Reader.ofBytes (be2 v)).get2 = some (v, ⟨2, []⟩) := by
  simp [Reader.get2, Reader.ofBytes, be2_eq, ofBe2_extract]

theorem Reader.get4_be4 (v : U32) : (Reader.ofBytes (be4 v)).get4 = some (v, ⟨4, []⟩) := by
  simp [Reader.get4, Reader.ofBytes, be4_eq, ofBe4_extract]

theorem Reader.getBytes_ofBytes (x : List Byte) :
    (Reader.ofBytes x).getBytes x.length = some (x, ⟨x.length, []⟩) := by
  simp [Reader.getBytes, Reader.ofBytes, Reader.left]

end Sys2Proof

namespace Sys2Proof.Machine

/-- A put with room succeeds, moves the cursor by the bytes written, and these are read back from where it stood. -/
theorem putBytes_readBack {wr : Writer} (h : WriterOk wr) {bs : List Byte} (hr : bs.length ≤ wr.room) :
    ∃ wr', wr.putBytes bs = some wr' ∧ wr'.w = wr.w + bs.length ∧
      wr'.space.readBytes (wr.base + wr.w) bs.length = some bs := by
  obtain ⟨wr', hput, p⟩ := putBytes_ok h hr
  exact ⟨wr', hput, p.w, (p.read h hr).1⟩

/-- Each byte put stands at its place in the window. -/
theorem Put.byteAt {bs : List Byte} {wr wr' : Writer} (h : WriterOk wr) (p : Put bs wr wr') {i : Nat}
    (hi : i < bs.length) : wr'.space.byteAt (wr.base + wr.w + i) = bs[i] := by
  rw [Space.byteAt, p.mem, Memory.read_writeBytes bs _ _ (Space.wf_mem h.1), dif_pos (by omega)]
  simp

theorem putPad_ok {wr : Writer} (h : WriterOk wr) (hr : padlen wr.w ≤ wr.room) :
    ∃ wr', wr.putPad = some wr' ∧ Put (zeros (padlen wr.w)) wr wr' :=
  putBytes_ok h (by simpa using hr)

/-- `putpad` stops at the next multiple of 4, having written zeros only. -/
theorem putPad_aligns {wr : Writer} (h : WriterOk wr) (hr : padlen wr.w ≤ wr.room) :
    ∃ wr', wr.putPad = some wr' ∧ wr'.w = pad4 wr.w ∧
      ∀ a, wr.w ≤ a → a < wr'.w → wr'.space.byteAt (wr.base + a) = 0 := by
  obtain ⟨wr', hput, p⟩ := putPad_ok h hr
  have hw : wr'.w = wr.w + padlen wr.w := by rw [p.w, zeros_length]
  refine ⟨wr', hput, hw.trans (padlen_spec wr.w).2, fun a hle hlt => ?_⟩
  obtain ⟨i, rfl⟩ := Nat.exists_eq_add_of_le hle
  have hi : i < (zeros (padlen wr.w)).length := by rw [zeros_length]; omega
  rw [← Nat.add_assoc, p.byteAt h hi]
  simp [zeros]

/-- Settles O5: each putter is a `putBytes` of an image that its getter inverts, and `putpad` puts `padlen` zeros. -/
theorem readerReadsWhatWriterWrote : Obligations.ReaderReadsWhatWriterWrote := by
  intro wr h
  refine ⟨fun v hr => ?_, fun v hr => ?_, fun v hr => ?_, fun x hr => ?_, fun hr => ?_⟩
  · obtain ⟨wr', hput, hw, hread⟩ := putBytes_readBack h (bs := [v]) hr
    exact ⟨wr', [v], hput, hw, hread, Reader.get1_singleton v⟩
  · obtain ⟨wr', hput, hw, hread⟩ := putBytes_readBack h (bs := be2 v) hr
    exact ⟨wr', be2 v, hput, hw, hread, Reader.get2_be2 v⟩
  · obtain ⟨wr', hput, hw, hread⟩ := putBytes_readBack h (bs := be4 v) hr
    exact ⟨wr', be4 v, hput, hw, hread, Reader.get4_be4 v⟩
  · obtain ⟨wr', hput, hw, hread⟩ := putBytes_readBack h hr
    exact ⟨wr', x, hput, hw, hread, Reader.getBytes_ofBytes x⟩
  · obtain ⟨wr', hput, hw, hzero⟩ := putPad_aligns h hr
    obtain ⟨hge, hle, hmod⟩ := pad4_spec wr.w
    exact ⟨wr', hput, hw ▸ hmod, hw ▸ hge, hw ▸ hle, hzero⟩

end Sys2Proof.Machine
end

section
/-! PROOFS. The SequenceNumberWrapper (41_seqnum_wrapper.md R163, R164, R166): the value `Wrap` answers in each of its
three cases, when it moves the registers, and `UnWrap`. -/

namespace Sys2Proof.Machine

/-- Case (a) of R162. -/
theorem wrapCycle_next {cycles maxSeqNum raw win : Nat} (h : raw < maxSeqNum ∧ maxSeqNum - raw > win) :
    wrapCycle cycles maxSeqNum raw win = cycles + 1 := if_pos h

/-- Case (b) of R162: its test excludes that of case (a). -/
theorem wrapCycle_previous {cycles maxSeqNum raw win : Nat}
    (h : maxSeqNum < raw ∧ raw - maxSeqNum > win ∧ 0 < cycles) :
    wrapCycle cycles maxSeqNum raw win = cycles - 1 := by
  rw [wrapCycle, if_neg (by omega), if_pos h]

/-- Case (c) of R162. -/
theorem wrapCycle_current {cycles maxSeqNum raw win : Nat} (ha : ¬ (raw < maxSeqNum ∧ maxSeqNum - raw > win))
    (hb : ¬ (maxSeqNum < raw ∧ raw - maxSeqNum > win ∧ 0 < cycles)) :
    wrapCycle cycles maxSeqNum raw win = cycles := by
  rw [wrapCycle, if_neg ha, if_neg hb]

theorem unWrap_toNat (n : Nat) {e : Nat} (ext : BitVec e) : (unWrap n ext).toNat = ext.toNat % 2 ^ n :=
  BitVec.toNat_setWidth n ext

namespace SeqWrapper

section
variable {n e win c : Nat} {w : SeqWrapper n e} {raw : BitVec n}

/-- The test of case (a) of R162. -/
abbrev NextCycle (win : Nat) (w : SeqWrapper n e) (raw : BitVec n) : Prop :=
  raw.toNat < w.maxSeqNum.toNat ∧ w.maxSeqNum.toNat - raw.toNat > win

/-- The test of case (b) of R162; where neither test holds, R162 is in case (c). -/
abbrev PreviousCycle (win : Nat) (w : SeqWrapper n e) (raw : BitVec n) : Prop :=
  w.maxSeqNum.toNat < raw.toNat ∧ raw.toNat - w.maxSeqNum.toNat > win ∧ 0 < w.cycles.toNat

/-- The equation of R163 (v) between the three registers. -/
abbrev MarkAgrees (w : SeqWrapper n e) : Prop :=
  w.maxExtSeqNum.toNat = w.cycles.toNat * 2 ^ n + w.maxSeqNum.toNat

/-- The value `Wrap` answers, whether or not the registers move. -/
theorem wrap_value (win : Nat) (w : SeqWrapper n e) (raw : BitVec n) :
    (w.wrap win raw).1 =
      BitVec.ofNat e (wrapCycle w.cycles.toNat w.maxSeqNum.toNat raw.toNat win * 2 ^ n + raw.toNat) := by
  unfold wrap
  dsimp only
  split <;> rfl

/-- The value is not cut when its cycle fits the cycle register. -/
theorem wrap_value_toNat (hn : n < e) (hc : wrapCycle w.cycles.toNat w.maxSeqNum.toNat raw.toNat win = c)
    (hfit : c < 2 ^ (e - n)) : (w.wrap win raw).1.toNat = c * 2 ^ n + raw.toNat := by
  rw [wrap_value, hc, BitVec.toNat_ofNat, Nat.mod_eq_of_lt (ext_lt hn hfit raw.isLt)]

/-- A value above the mark moves the three registers. -/
theorem wrap_moves (h : w.maxExtSeqNum.toNat < (w.wrap win raw).1.toNat) :
    (w.wrap win raw).2 =
      ⟨BitVec.ofNat _ (wrapCycle w.cycles.toNat w.maxSeqNum.toNat raw.toNat win), raw, (w.wrap win raw).1⟩ := by
  rw [wrap_value] at h ⊢
  exact congrArg Prod.snd (if_pos h)

/-- A value not above the mark leaves the registers alone. -/
theorem wrap_stays (h : (w.wrap win raw).1.toNat ≤ w.maxExtSeqNum.toNat) : (w.wrap win raw).2 = w := by
  rw [wrap_value] at h
  exact congrArg Prod.snd (if_neg (Nat.not_lt.2 h))

/-- R163 (iv), at the end of the extended range too: `2 ^ n` divides `2 ^ e`. -/
theorem wrap_value_mod (hn : n < e) (win : Nat) (w : SeqWrapper n e) (raw : BitVec n) :
    (w.wrap win raw).1.toNat % 2 ^ n = raw.toNat := by
  rw [wrap_value, BitVec.toNat_ofNat, Nat.mod_mod_of_dvd _ (pow_dvd_pow 2 hn.le), Nat.mul_add_mod',
    Nat.mod_eq_of_lt raw.isLt]

/-- R164: `UnWrap` gives back what `Wrap` was given. -/
theorem unWrap_wrap (hn : n < e) (win : Nat) (w : SeqWrapper n e) (raw : BitVec n) :
    unWrap n (w.wrap win raw).1 = raw :=
  BitVec.eq_of_toNat_eq ((unWrap_toNat n _).trans (wrap_value_mod hn win w raw))

/-- R163 (i): a value of the next cycle is above the mark, `maxSeqNum` being less than a cycle. -/
theorem wrap_next (hn : n < e) (hmark : w.MarkAgrees) (hroom : w.cycles.toNat + 1 < 2 ^ (e - n))
    (ha : w.NextCycle win raw) :
    w.maxExtSeqNum.toNat < (w.wrap win raw).1.toNat ∧ (w.wrap win raw).2.cycles.toNat = w.cycles.toNat + 1 ∧
      (w.wrap win raw).2.maxSeqNum = raw ∧ (w.wrap win raw).2.maxExtSeqNum = (w.wrap win raw).1 := by
  have habove : w.maxExtSeqNum.toNat < (w.wrap win raw).1.toNat := by
    rw [wrap_value_toNat hn (wrapCycle_next ha) hroom, hmark, Nat.succ_mul]
    have := w.maxSeqNum.isLt
    omega
  rw [wrap_moves habove, wrapCycle_next ha]
  exact ⟨habove, Nat.mod_eq_of_lt hroom, rfl, rfl⟩

/-- R163 (ii): a value of the previous cycle is below the mark, `raw` being less than a cycle. -/
theorem wrap_previous (hn : n < e) (hmark : w.MarkAgrees) (hb : w.PreviousCycle win raw) :
    (w.wrap win raw).1.toNat < w.maxExtSeqNum.toNat ∧ (w.wrap win raw).2 = w := by
  have hbelow : (w.wrap win raw).1.toNat < w.maxExtSeqNum.toNat := by
    rw [wrap_value_toNat hn (wrapCycle_previous hb) ((Nat.sub_le _ _).trans_lt w.cycles.isLt), hmark]
    obtain ⟨-, -, hcycles⟩ := hb
    obtain ⟨k, hk⟩ := Nat.exists_eq_add_of_lt hcycles
    rw [hk, Nat.zero_add, Nat.add_sub_cancel, Nat.succ_mul]
    have := raw.isLt
    omega
  exact ⟨hbelow, wrap_stays hbelow.le⟩

/-- In case (c) the value lies in the mark's own cycle. -/
theorem wrap_current_value (hn : n < e) (ha : ¬ w.NextCycle win raw) (hb : ¬ w.PreviousCycle win raw) :
    (w.wrap win raw).1.toNat = w.cycles.toNat * 2 ^ n + raw.toNat :=
  wrap_value_toNat hn (wrapCycle_current ha hb) w.cycles.isLt

/-- R163 (iii), forwards: `raw` beyond `maxSeqNum` moves the mark within its cycle. -/
theorem wrap_current_moves (hn : n < e) (hmark : w.MarkAgrees) (hb : ¬ w.PreviousCycle win raw)
    (hraw : w.maxSeqNum.toNat < raw.toNat) :
    (w.wrap win raw).2 = ⟨w.cycles, raw, (w.wrap win raw).1⟩ := by
  have ha : ¬ w.NextCycle win raw := by omega
  have habove : w.maxExtSeqNum.toNat < (w.wrap win raw).1.toNat := by
    rw [wrap_current_value hn ha hb, hmark]
    omega
  rw [wrap_moves habove, wrapCycle_current ha hb, BitVec.ofNat_toNat, BitVec.setWidth_eq]

/-- R163 (iii), backwards: `raw` up to `maxSeqNum` changes nothing. -/
theorem wrap_current_stays (hn : n < e) (hmark : w.MarkAgrees) (ha : ¬ w.NextCycle win raw)
    (hraw : raw.toNat ≤ w.maxSeqNum.toNat) : (w.wrap win raw).2 = w := by
  apply wrap_stays
  rw [wrap_current_value hn ha (by omega), hmark]
  omega

/-- R163 (iii): case (c) never counts a cycle, and moves the registers exactly when `raw` is beyond `maxSeqNum`. -/
theorem wrap_current (hn : n < e) (hmark : w.MarkAgrees) (ha : ¬ w.NextCycle win raw)
    (hb : ¬ w.PreviousCycle win raw) :
    (w.wrap win raw).2.cycles = w.cycles ∧
      (w.maxSeqNum.toNat < raw.toNat →
        (w.wrap win raw).2.maxSeqNum = raw ∧ (w.wrap win raw).2.maxExtSeqNum = (w.wrap win raw).1) ∧
      (raw.toNat ≤ w.maxSeqNum.toNat → (w.wrap win raw).2 = w) := by
  rcases Nat.lt_or_ge w.maxSeqNum.toNat raw.toNat with hraw | hraw
  · rw [wrap_current_moves hn hmark hb hraw]
    exact ⟨rfl, fun _ => ⟨rfl, rfl⟩, fun h => absurd hraw h.not_gt⟩
  · rw [wrap_current_stays hn hmark ha hraw]
    exact ⟨rfl, fun h => absurd hraw h.not_ge, fun _ => rfl⟩

end

/-- Settles O13: from the reset registers every raw value is in case (c), in cycle 0. -/
theorem wrapFirstCall : Obligations.WrapFirstCall := by
  intro n e win raw _ hn
  have ha : ¬ (⟨0, 0, 0⟩ : SeqWrapper n e).NextCycle win raw := by simp [NextCycle]
  have hb : ¬ (⟨0, 0, 0⟩ : SeqWrapper n e).PreviousCycle win raw := by simp [PreviousCycle]
  have hmark : (⟨0, 0, 0⟩ : SeqWrapper n e).MarkAgrees := by simp [MarkAgrees]
  have hval : ((⟨0, 0, 0⟩ : SeqWrapper n e).wrap win raw).1.toNat = raw.toNat := by
    simpa using wrap_current_value hn ha hb
  refine ⟨hval, ?_⟩
  split
  next hraw =>
    rw [wrap_current_moves hn hmark hb (by simpa using hraw), ← hval, BitVec.ofNat_toNat, BitVec.setWidth_eq]
  next hraw => exact wrap_current_stays hn hmark ha (by simpa using hraw)

/-- Settles O14: the three cases of `Wrap`, then what holds of all of them. -/
theorem wrapCases : Obligations.WrapCases := by
  intro n e win w raw _ hn hmark hroom
  exact ⟨wrap_next hn hmark hroom, wrap_previous hn hmark, wrap_current hn hmark, wrap_value_mod hn win w raw,
    wrap_mark hn win w raw hmark, wrap_mark_le win w raw, unWrap_wrap hn win w raw, unWrap_toNat n⟩

end SeqWrapper

end Sys2Proof.Machine
end

section
/-! PROOFS. The chunk record codec (42 to 44): the image of a well-formed record parses back to it (R285), its size
(R286), and what `Serialize` writes (R255). -/

namespace Sys2Proof

/-! ## Reading what stands at the cursor -/

namespace Reader

@[simp] theorem get2_be2_append (p : Nat) (v : U16) (tail : List Byte) :
    (⟨p, be2 v ++ tail⟩ : Reader).get2 = some (v, ⟨p + 2, tail⟩) := by
  simp [get2, be2_eq, ofBe2_extract]

@[simp] theorem get4_be4_append (p : Nat) (v : U32) (tail : List Byte) :
    (⟨p, be4 v ++ tail⟩ : Reader).get4 = some (v, ⟨p + 4, tail⟩) := by
  simp [get4, be4_eq, ofBe4_extract]

/-- At the end of the region there is no padding to skip (40 R137). -/
@[simp] theorem skipPad_end (p : Nat) : (⟨p, []⟩ : Reader).skipPad = ⟨p, []⟩ := by
  simp [skipPad, left]

/-- The padding of a TLV that began at a multiple of 4 is skipped whole. -/
theorem skipPad_zeros {p : Nat} (hp : p % 4 = 0) (n : Nat) (tail : List Byte) :
    (⟨p + (4 + n), zeros (padlen n) ++ tail⟩ : Reader).skipPad = ⟨p + pad4 (4 + n), tail⟩ := by
  have hpad : padlen (p + (4 + n)) = padlen n := by
    rw [padlen_add_of_mod hp, padlen_add_of_mod (a := 4) rfl]
  have hcur : p + (4 + n) + padlen n = p + pad4 (4 + n) := by
    rw [← (padlen_spec (4 + n)).2, padlen_add_of_mod (a := 4) rfl]; omega
  simp only [skipPad, left, hpad, List.length_append, zeros_length, Nat.min_eq_left (Nat.le_add_right _ _), hcur]
  rw [List.drop_left' (zeros_length _)]

end Reader

/-! ## The body of a chunk -/

/-- The bytes after the chunk header that the `length` field counts (R94). -/
def Chunk.body (k : Codes) (c : Chunk) : List Byte := (c.afterHeader k).take (c.length k - 4)

/-- A usable length gives the operands the bytes it counts (44 R250). -/
theorem rawChunk_usable (f : Byte) {l : U16} {tail : List Byte} (h4 : 4 ≤ l.toNat)
    (hl : l.toNat - 4 ≤ tail.length) :
    rawChunk f l tail = ⟨f, l, tail.take (l.toNat - 4)⟩ ∧ (rawChunk f l tail).lengthUsable = true := by
  have hraw : rawChunk f l tail = ⟨f, l, tail.take (l.toNat - 4)⟩ := if_pos ⟨h4, hl⟩
  refine ⟨hraw, ?_⟩
  simp [hraw, RawChunk.lengthUsable]; omega

/-- The bytes 2 and 3 of the image hold the length (R286). -/
theorem image_lengthField {k : Codes} {c : Chunk} (h : c.wf k = true) :
    ∃ l1 l0, c.image k = c.typeCode k :: c.flag :: l1 :: l0 :: c.afterHeader k ∧ (ofBe2 l1 l0).toNat = c.length k :=
  ⟨_, _, rfl, ofBe2_ofNat_toNat (wf_length h)⟩

/-- `ParseChunk` on an image runs the body parser on the body, and the next chunk is GetSize bytes further on. -/
theorem parseChunk_image {k : Codes} {c : Chunk} (h : c.wf k = true) :
    parseChunk k (c.image k) = (parseBody k (c.typeCode k) c.flag (c.body k), c.size k) := by
  obtain ⟨l1, l0, himage, hlen⟩ := image_lengthField h
  obtain ⟨hle, -, -, h4⟩ := size_law k c
  have hafter := afterHeader_length k c
  obtain ⟨hraw, husable⟩ :=
    rawChunk_usable c.flag (l := ofBe2 l1 l0) (tail := c.afterHeader k) (by omega) (by omega)
  have hnext : min (pad4 (ofBe2 l1 l0).toNat) (c.image k).length = c.size k := by
    rw [image_length, hlen]; exact Nat.min_self _
  rw [himage] at hnext ⊢
  rw [parseChunk, if_pos husable, hraw, hnext, hlen]
  rfl

theorem take_padded {x : List Byte} {n : Nat} (h : n = x.length) : (padded x).take n = x :=
  List.take_left' h.symm

/-! ## TLV parameters written one after the other (42 R183, R185) -/

/-- The parameters as a body holds them: the padding of the last one belongs to the chunk (42 R185). -/
def trimmedTlvs (ps : List (U16 × List Byte)) : List Byte := (tlvs ps).take ((tlvs ps).length - lastPad ps)

theorem trimmedTlvs_nil : trimmedTlvs [] = [] := rfl

/-- A parameter that stands alone has no padding in the body. -/
theorem trimmedTlvs_singleton (p : U16 × List Byte) :
    trimmedTlvs [p] = be2 p.1 ++ (be2 (BitVec.ofNat 16 (4 + p.2.length)) ++ p.2) := by
  have hsplit :
      tlvs [p] = (be2 p.1 ++ (be2 (BitVec.ofNat 16 (4 + p.2.length)) ++ p.2)) ++ zeros (padlen p.2.length) := by
    simp [tlvs, tlv]
  rw [trimmedTlvs, hsplit]
  exact List.take_left' (by simp [lastPad]; omega)

theorem trimmedTlvs_cons_cons (p q : U16 × List Byte) (ps : List (U16 × List Byte)) :
    trimmedTlvs (p :: q :: ps) = tlv p ++ trimmedTlvs (q :: ps) := by
  have hcons : tlvs (p :: q :: ps) = tlv p ++ tlvs (q :: ps) := rfl
  have hlast : lastPad (p :: q :: ps) = lastPad (q :: ps) := by simp [lastPad, List.getLast?_cons_cons]
  obtain ⟨-, hle⟩ := lastPad_le (q :: ps)
  rw [trimmedTlvs, hcons, hlast, List.length_append, Nat.add_sub_assoc hle, List.take_length_add_append]
  rfl

/-- Each parameter takes up its header at least. -/
theorem trimmedTlvs_length_cons (p : U16 × List Byte) (ps : List (U16 × List Byte)) :
    (trimmedTlvs ps).length + 4 ≤ (trimmedTlvs (p :: ps)).length := by
  cases ps with
  | nil => simp [trimmedTlvs_nil, trimmedTlvs_singleton]; omega
  | cons q qs =>
    have hpad := pad4_spec (4 + p.2.length)
    rw [trimmedTlvs_cons_cons, List.length_append, tlv_length]; omega

/-- The parameters `ps`, stored in order, turn the record being assembled from `b` into `b'` (42 R184). -/
inductive Stores (k : Codes) : List (U16 × List Byte) → Building → Building → Prop
  | nil (b : Building) : Stores k [] b b
  | cons {p : U16 × List Byte} {ps : List (U16 × List Byte)} {b b' b'' : Building}
      (hp : storeParam k p.1 p.2 b = some b') (hps : Stores k ps b' b'') : Stores k (p :: ps) b b''

/-- The loop ends where the body is used up. -/
theorem parseParams_end (k : Codes) (fuel p : Nat) (b : Building) :
    parseParams k (fuel + 1) b ⟨p, []⟩ = b.close := rfl

/-- One turn of the parameter loop: a parameter that is stored, with `tail` after its value. -/
theorem parseParams_step {k : Codes} {t : U16} {v : List Byte} {b b' : Building} (hv : v.length ≤ 65531)
    (hstore : storeParam k t v b = some b') (fuel p : Nat) (tail : List Byte) :
    parseParams k (fuel + 1) b ⟨p, be2 t ++ (be2 (BitVec.ofNat 16 (4 + v.length)) ++ (v ++ tail))⟩ =
      parseParams k fuel b' (Reader.skipPad ⟨p + (4 + v.length), tail⟩) := by
  have hl : (BitVec.ofNat 16 (4 + v.length)).toNat = 4 + v.length := by
    rw [BitVec.toNat_ofNat]; omega
  have hraw : rawParam (BitVec.ofNat 16 (4 + v.length)) (v ++ tail) = ⟨BitVec.ofNat 16 (4 + v.length), v⟩ := by
    rw [rawParam, if_pos (by rw [hl, List.length_append]; omega), hl, Nat.add_sub_cancel_left, List.take_left]
  have husable : RawParam.lengthUsable ⟨BitVec.ofNat 16 (4 + v.length), v⟩ = true := by
    simp only [RawParam.lengthUsable, hl, beq_self_eq_true]
  have hskip : (⟨p, be2 t ++ (be2 (BitVec.ofNat 16 (4 + v.length)) ++ (v ++ tail))⟩ : Reader).skip (4 + v.length) =
      some ⟨p + (4 + v.length), tail⟩ := by
    rw [Reader.skip, if_pos (by simp [Reader.left]; omega), ← List.append_assoc, ← List.append_assoc,
      List.drop_left' (by simp; omega)]
  have hleft : (⟨p, be2 t ++ (be2 (BitVec.ofNat 16 (4 + v.length)) ++ (v ++ tail))⟩ : Reader).left ≠ 0 := by
    simp [Reader.left]
  rw [parseParams, if_neg hleft]
  simp only [be2_eq, List.cons_append, List.nil_append, ofBe2_extract] at hskip ⊢
  simp only [hraw, husable, if_true, hstore, hskip]

/-- The loop of 42 R183 over written parameters stores them all and closes the record. -/
theorem parseParams_trimmedTlvs {k : Codes} {ps : List (U16 × List Byte)} {b b' : Building} (h : Stores k ps b b')
    (hv : ∀ p ∈ ps, p.2.length ≤ 65531) {fuel p : Nat} (hfuel : (trimmedTlvs ps).length < fuel) (hp : p % 4 = 0) :
    parseParams k fuel b ⟨p, trimmedTlvs ps⟩ = b'.close := by
  induction h generalizing fuel p with
  | nil b =>
    obtain ⟨n, rfl⟩ := Nat.exists_eq_add_of_lt hfuel
    exact parseParams_end k _ p b
  | @cons q qs b b' b'' hq hqs ih =>
    obtain ⟨hqv, hqsv⟩ := List.forall_mem_cons.1 hv
    have hlen := trimmedTlvs_length_cons q qs
    obtain ⟨n, rfl⟩ : ∃ n, fuel = n + 1 := ⟨fuel - 1, by omega⟩
    have hn : (trimmedTlvs qs).length < n := by omega
    have hstep := parseParams_step hqv hq n p
    cases qs with
    | nil =>
      cases hqs
      obtain ⟨m, rfl⟩ : ∃ m, n = m + 1 := ⟨n - 1, by omega⟩
      have hlast := hstep []
      rw [List.append_nil, Reader.skipPad_end] at hlast
      rw [trimmedTlvs_singleton, hlast, parseParams_end]
    | cons q' qs =>
      have hnext : (p + pad4 (4 + q.2.length)) % 4 = 0 := by have := pad4_spec (4 + q.2.length); omega
      rw [trimmedTlvs_cons_cons, tlv, List.append_assoc, List.append_assoc, List.append_assoc, hstep,
        Reader.skipPad_zeros hp]
      exact ih hqsv hn hnext

/-! ## The parameters of an INIT and an INIT-ACK stored again -/

namespace Stores

variable {k : Codes}

theorem append {ps qs : List (U16 × List Byte)} {b b' b'' : Building} (hps : Stores k ps b b')
    (hqs : Stores k qs b' b'') : Stores k (ps ++ qs) b b'' := by
  induction hps with
  | nil => exact hqs
  | cons hp _ ih => exact .cons hp (ih hqs)

theorem single {p : U16 × List Byte} {b b' : Building} (h : storeParam k p.1 p.2 b = some b') : Stores k [p] b b' :=
  .cons h (.nil b')

/-- Parameters that are each appended to a list are all appended to it, in order. -/
theorem list {α : Type} {image : α → U16 × List Byte} {st : List α → Building} {xs : List α} (pre : List α)
    (h : ∀ x ∈ xs, ∀ as, storeParam k (image x).1 (image x).2 (st as) = some (st (as ++ [x]))) :
    Stores k (xs.map image) (st pre) (st (pre ++ xs)) := by
  induction xs generalizing pre with
  | nil => rw [List.append_nil]; exact .nil _
  | cons x xs ih =>
    obtain ⟨hx, hxs⟩ := List.forall_mem_cons.1 h
    have hrest := ih (pre ++ [x]) hxs
    rw [List.append_assoc] at hrest
    exact .cons (hx pre) hrest

/-- A parameter that is there at most once is stored where none was. -/
theorem option {α : Type} {image : α → U16 × List Byte} {st : Option α → Building} (o : Option α)
    (h : ∀ x, storeParam k (image x).1 (image x).2 (st none) = some (st (some x))) :
    Stores k (o.toList.map image) (st none) (st o) := by
  cases o with
  | none => exact .nil _
  | some x => exact single (h x)

end Stores

/-- An INIT or an INIT-ACK being assembled, as a function of the fields the two share, and the parameter types it
accepts (42 R184). -/
inductive SharedPart (k : Codes) : List U16 → (InitRec → Building) → Prop
  | init (flag : Byte) (life : Option U32) : SharedPart k (initParamTypes k) fun r => .init flag r life
  | initAck (flag : Byte) (ck : Option (List Byte)) : SharedPart k (initAckParamTypes k) fun r => .initAck flag r ck

namespace SharedPart

variable {k : Codes} {accepted : List U16} {mk : InitRec → Building}

theorem storeParam_ipv4 (h : SharedPart k accepted mk) (hk : k.Distinct) {v : List Byte} (hv : v.length = 4)
    (r : InitRec) :
    storeParam k (k.paramType .ipv4Address) v (mk r) = some (mk { r with ipv4 := r.ipv4 ++ [v] }) := by
  cases h <;> simp [storeParam, hk.paramKindOf, storeIpv4, hv]

theorem storeParam_ipv6 (h : SharedPart k accepted mk) (hk : k.Distinct) {v : List Byte} (hv : v.length = 16)
    (r : InitRec) :
    storeParam k (k.paramType .ipv6Address) v (mk r) = some (mk { r with ipv6 := r.ipv6 ++ [v] }) := by
  cases h <;> simp [storeParam, hk.paramKindOf, storeIpv6, hv]

theorem storeParam_hostName (h : SharedPart k accepted mk) (hk : k.Distinct) (v : List Byte) (r : InitRec) :
    storeParam k (k.paramType .hostName) v (mk r) = some (mk { r with hostName := some v }) := by
  cases h <;> simp [storeParam, hk.paramKindOf, storeHostName]

theorem storeParam_supportedExtensions (h : SharedPart k accepted mk) (hk : k.Distinct) (v : List Byte) (r : InitRec) :
    storeParam k (k.paramType .supportedExtensions) v (mk r) = some (mk { r with supportedExtensions := some v }) := by
  cases h <;> simp [storeParam, hk.paramKindOf, storeSupportedExtensions]

theorem storeParam_forwardTSNSupported (h : SharedPart k accepted mk) (hk : k.Distinct) (r : InitRec) :
    storeParam k (k.paramType .forwardTSNSupported) [] (mk r) = some (mk { r with forwardTSNSupported := true }) := by
  cases h <;> simp [storeParam, hk.paramKindOf, storeForwardTSNSupported]

/-- A parameter of a type that is not accepted is kept verbatim (30 R105), a named one too. -/
theorem storeParam_unaccepted (h : SharedPart k accepted mk) {t : U16} (ht : t ∉ accepted) (v : List Byte)
    (r : InitRec) :
    storeParam k t v (mk r) = some (mk { r with unknownParams := r.unknownParams ++ [(t, v)] }) := by
  cases hkind : k.paramKindOf t with
  | none => cases h <;> simp [storeParam, hkind, keepUnrecognised]
  | some x =>
    obtain rfl := paramType_of_kindOf hkind
    cases h with
    | init =>
      cases x <;>
        simp_all [initParamTypes, storeParam, storeHeartbeatInfo, storeStateCookie, keepUnrecognised]
    | initAck =>
      cases x <;>
        simp_all [initAckParamTypes, storeParam, storeHeartbeatInfo, storeCookiePreservative, keepUnrecognised]

end SharedPart

/-- The fields of the 16-byte fixed part, with no parameter stored (42 R181). -/
def InitRec.fixedPart (r : InitRec) : InitRec :=
  ⟨r.initiateTag, r.arwnd, r.numOutbound, r.numInbound, r.initialTSN, [], [], none, none, false, []⟩

/-- The parameters written before the cookie line of 42 R185. -/
def leadingParams (k : Codes) (r : InitRec) : List (U16 × List Byte) :=
  r.ipv4.map (fun a => (k.paramType .ipv4Address, a)) ++ (r.ipv6.map (fun a => (k.paramType .ipv6Address, a))
  ++ r.hostName.toList.map (fun h => (k.paramType .hostName, h)))

/-- The parameters written after it. -/
def trailingParams (k : Codes) (r : InitRec) : List (U16 × List Byte) :=
  r.supportedExtensions.toList.map (fun e => (k.paramType .supportedExtensions, e))
  ++ ((if r.forwardTSNSupported then [(k.paramType .forwardTSNSupported, [])] else []) ++ r.unknownParams)

theorem paramList_eq (k : Codes) (r : InitRec) (life : Option U32) (ck : Option (List Byte)) :
    paramList k r life ck = leadingParams k r ++ (life.toList.map (fun n => (k.paramType .cookiePreservative, be4 n))
      ++ (ck.toList.map (fun c => (k.paramType .stateCookie, c)) ++ trailingParams k r)) := by
  simp only [paramList, leadingParams, trailingParams, List.append_assoc]

/-- What `WF` asks of the parameters (42 R186), said of each. -/
theorem InitRec.paramsWf_iff {r : InitRec} {accepted : List U16} {ps : List (U16 × List Byte)} :
    r.paramsWf accepted ps = true ↔ (∀ a ∈ r.ipv4, a.length = 4) ∧ (∀ a ∈ r.ipv6, a.length = 16) ∧
      (∀ p ∈ r.unknownParams, p.1 ∉ accepted) ∧ ∀ p ∈ ps, p.2.length ≤ 65531 := by
  simp [InitRec.paramsWf, and_assoc]

/-- The fixed part with the addresses and the host name stored. -/
def InitRec.withLeading (r : InitRec) : InitRec :=
  { r.fixedPart with ipv4 := r.ipv4, ipv6 := r.ipv6, hostName := r.hostName }

namespace SharedPart

variable {k : Codes} {accepted : List U16} {mk : InitRec → Building}

/-- The addresses and the host name are stored into the fixed part. -/
theorem stores_leading (h : SharedPart k accepted mk) (hk : k.Distinct) {r : InitRec}
    (h4 : ∀ a ∈ r.ipv4, a.length = 4) (h6 : ∀ a ∈ r.ipv6, a.length = 16) :
    Stores k (leadingParams k r) (mk r.fixedPart) (mk r.withLeading) := by
  have s4 := Stores.list (image := fun a => (k.paramType .ipv4Address, a))
    (st := fun as => mk { r.fixedPart with ipv4 := as }) [] fun a ha as =>
      h.storeParam_ipv4 hk (h4 a ha) _
  have s6 := Stores.list (image := fun a => (k.paramType .ipv6Address, a))
    (st := fun as => mk { r.fixedPart with ipv4 := r.ipv4, ipv6 := as }) [] fun a ha as =>
      h.storeParam_ipv6 hk (h6 a ha) _
  have sh := Stores.option (image := fun v => (k.paramType .hostName, v))
    (st := fun o => mk { r.withLeading with hostName := o }) r.hostName fun v =>
      h.storeParam_hostName hk v _
  exact s4.append (s6.append sh)

/-- The extensions, FORWARD-TSN-SUPPORTED and the kept parameters complete the record. -/
theorem stores_trailing (h : SharedPart k accepted mk) (hk : k.Distinct) {r : InitRec}
    (hu : ∀ p ∈ r.unknownParams, p.1 ∉ accepted) : Stores k (trailingParams k r) (mk r.withLeading) (mk r) := by
  have se := Stores.option (image := fun v => (k.paramType .supportedExtensions, v))
    (st := fun o => mk { r.withLeading with supportedExtensions := o }) r.supportedExtensions fun v =>
      h.storeParam_supportedExtensions hk v _
  have sf : Stores k (if r.forwardTSNSupported then [(k.paramType .forwardTSNSupported, [])] else [])
      (mk { r with forwardTSNSupported := false, unknownParams := [] }) (mk { r with unknownParams := [] }) := by
    cases hf : r.forwardTSNSupported with
    | false => exact .nil _
    | true => exact .single (h.storeParam_forwardTSNSupported hk _)
  have su := Stores.list (image := id) (st := fun us => mk { r with unknownParams := us }) []
    fun p hp us => h.storeParam_unaccepted (hu p hp) p.2 _
  rw [List.map_id] at su
  exact se.append (sf.append su)

end SharedPart

/-- The parameters of a well-formed INIT, stored into its fixed part, give it back. -/
theorem stores_init {k : Codes} (hk : k.Distinct) {f : Byte} {r : InitRec} {life : Option U32}
    (h : r.paramsWf (initParamTypes k) (paramList k r life none) = true) :
    Stores k (paramList k r life none) (.init f r.fixedPart none) (.init f r life) := by
  obtain ⟨h4, h6, hu, -⟩ := InitRec.paramsWf_iff.1 h
  have hlife := Stores.option (k := k) (image := fun n => (k.paramType .cookiePreservative, be4 n))
    (st := fun l => .init f r.withLeading l) life fun n => by
      simp [storeParam, hk.paramKindOf, storeCookiePreservative, be4_eq, ofBe4_extract]
  rw [paramList_eq]
  exact ((SharedPart.init f none).stores_leading hk h4 h6).append
    (hlife.append ((SharedPart.init f life).stores_trailing hk hu))

theorem stores_initAck {k : Codes} (hk : k.Distinct) {f : Byte} {r : InitRec} {ck : Option (List Byte)}
    (h : r.paramsWf (initAckParamTypes k) (paramList k r none ck) = true) :
    Stores k (paramList k r none ck) (.initAck f r.fixedPart none) (.initAck f r ck) := by
  obtain ⟨h4, h6, hu, -⟩ := InitRec.paramsWf_iff.1 h
  have hck := Stores.option (k := k) (image := fun c => (k.paramType .stateCookie, c))
    (st := fun o => .initAck f r.withLeading o) ck fun c => by
      simp [storeParam, hk.paramKindOf, storeStateCookie]
  rw [paramList_eq]
  exact ((SharedPart.initAck f none).stores_leading hk h4 h6).append
    (hck.append ((SharedPart.initAck f ck).stores_trailing hk hu))

/-! ## Each body parser on the body its serialiser writes -/

theorem initFixedImage_length (r : InitRec) : (initFixedImage r).length = 16 := rfl

theorem parseInitFixed_append (r : InitRec) (tail : List Byte) :
    parseInitFixed (initFixedImage r ++ tail) = some (r.fixedPart, tail) := by
  have hlen : ¬ (initFixedImage r ++ tail).length < 16 := by
    rw [List.length_append, initFixedImage_length]; omega
  rw [parseInitFixed, if_neg hlen]
  simp [initFixedImage, Reader.ofBytes, InitRec.fixedPart]

/-- The body of an INIT or INIT-ACK ends before the padding of its last parameter (42 R185). -/
theorem take_initBodyImage (r : InitRec) (ps : List (U16 × List Byte)) :
    (initBodyImage r ps).take (4 + (initBodyImage r ps).length - lastPad ps - 4) =
      initFixedImage r ++ trimmedTlvs ps := by
  have hlen : 4 + (initBodyImage r ps).length - lastPad ps - 4 =
      (initFixedImage r).length + ((tlvs ps).length - lastPad ps) := by
    have := lastPad_le ps
    rw [initBody_facts, initFixedImage_length]; omega
  rw [hlen, initBodyImage, List.take_length_add_append, trimmedTlvs]

/-- A list of written parameters parses to the record they build up. -/
theorem parseParamList_trimmedTlvs {k : Codes} {ps : List (U16 × List Byte)} {b b' : Building} (h : Stores k ps b b')
    (hv : ∀ p ∈ ps, p.2.length ≤ 65531) : parseParamList k (some (b, trimmedTlvs ps)) = b'.close :=
  parseParams_trimmedTlvs h hv (Nat.lt_succ_self _) rfl

theorem parseInit_body {k : Codes} (hk : k.Distinct) {f : Byte} {r : InitRec} {life : Option U32}
    (h : (Chunk.init f r life).wf k = true) :
    parseParamList k (openInit f ((Chunk.init f r life).body k)) = some (.init f r life) := by
  obtain ⟨hps, -⟩ := (Bool.and_eq_true _ _).mp h
  have hbody : (Chunk.init f r life).body k = initFixedImage r ++ trimmedTlvs (paramList k r life none) :=
    take_initBodyImage r _
  rw [hbody, openInit, parseInitFixed_append]
  exact parseParamList_trimmedTlvs (stores_init hk hps) (InitRec.paramsWf_iff.1 hps).2.2.2

theorem parseInitAck_body {k : Codes} (hk : k.Distinct) {f : Byte} {r : InitRec} {ck : Option (List Byte)}
    (h : (Chunk.initAck f r ck).wf k = true) :
    parseParamList k (openInitAck f ((Chunk.initAck f r ck).body k)) = some (.initAck f r ck) := by
  obtain ⟨hps, -⟩ := (Bool.and_eq_true _ _).mp h
  have hbody : (Chunk.initAck f r ck).body k = initFixedImage r ++ trimmedTlvs (paramList k r none ck) :=
    take_initBodyImage r _
  rw [hbody, openInitAck, parseInitFixed_append]
  exact parseParamList_trimmedTlvs (stores_initAck hk hps) (InitRec.paramsWf_iff.1 hps).2.2.2

theorem body_heartbeat (k : Codes) (f : Byte) (info : List Byte) :
    (Chunk.heartbeat f info).body k = trimmedTlvs [(k.paramType .heartbeatInfo, info)] := by
  rw [trimmedTlvs_singleton]
  exact take_padded (by simp [Chunk.length]; omega)

theorem parseHeartbeat_body {k : Codes} (hk : k.Distinct) {f : Byte} {info : List Byte} (h : info.length ≤ 65527) :
    parseParamList k (openHeartbeat f ((Chunk.heartbeat f info).body k)) = some (.heartbeat f info) := by
  have hlen := trimmedTlvs_length_cons (k.paramType .heartbeatInfo, info) []
  have hstore : Stores k [(k.paramType .heartbeatInfo, info)] (.heartbeat f none) (.heartbeat f (some info)) :=
    .single (by simp [storeParam, hk.paramKindOf, storeHeartbeatInfo])
  rw [body_heartbeat, openHeartbeat, if_neg (by omega)]
  exact parseParamList_trimmedTlvs hstore (by simp; omega)

theorem parseHeartbeatAck_body {k : Codes} (hk : k.Distinct) {f : Byte} {info : List Byte} (h : info.length ≤ 65527) :
    parseParamList k (openHeartbeatAck f ((Chunk.heartbeatAck f info).body k)) = some (.heartbeatAck f info) := by
  have hlen := trimmedTlvs_length_cons (k.paramType .heartbeatInfo, info) []
  have hstore : Stores k [(k.paramType .heartbeatInfo, info)] (.heartbeatAck f none) (.heartbeatAck f (some info)) :=
    .single (by simp [storeParam, hk.paramKindOf, storeHeartbeatInfo])
  have hbody : (Chunk.heartbeatAck f info).body k = (Chunk.heartbeat f info).body k := rfl
  rw [hbody, body_heartbeat, openHeartbeatAck, if_neg (by omega)]
  exact parseParamList_trimmedTlvs hstore (by simp; omega)

theorem parseData_body (k : Codes) (f : Byte) (r : DataRec) :
    parseData f ((Chunk.data f r).body k) = some (.data f r) := by
  have hbody : (Chunk.data f r).body k =
      be4 r.tsn ++ (be2 r.streamId ++ (be2 r.streamSeq ++ (be4 r.ppid ++ r.payload))) :=
    take_padded (by simp [Chunk.length]; omega)
  have hlen : ¬ ((Chunk.data f r).body k).length < 12 := by
    rw [hbody]; simp only [List.length_append, be2_length, be4_length]; omega
  rw [parseData, if_neg hlen, hbody]
  simp [Reader.ofBytes, Reader.getBytes, Reader.left]

theorem parseGaps_written (gs : List (U16 × U16)) (p : Nat) (tail : List Byte) :
    parseGaps gs.length ⟨p, gs.flatMap (fun g => be2 g.1 ++ be2 g.2) ++ tail⟩ =
      some (gs, ⟨p + 4 * gs.length, tail⟩) := by
  induction gs generalizing p with
  | nil => rfl
  | cons g gs ih =>
    have hcur : p + 2 + 2 + 4 * gs.length = p + 4 * (gs.length + 1) := by omega
    simp [parseGaps, ih, hcur]

theorem parseDups_written (ds : List U32) (p : Nat) :
    parseDups ds.length ⟨p, ds.flatMap be4⟩ = some (ds, ⟨p + 4 * ds.length, []⟩) := by
  induction ds generalizing p with
  | nil => rfl
  | cons d ds ih =>
    have hcur : p + 4 + 4 * ds.length = p + 4 * (ds.length + 1) := by omega
    simp [parseDups, ih, hcur]

theorem parseSack_body {k : Codes} {f : Byte} {r : SackRec} (h : (Chunk.sack f r).wf k = true) :
    parseSack f ((Chunk.sack f r).body k) = some (.sack f r) := by
  have hmax : r.gapBlocks.length + r.dupTSNs.length ≤ 16379 := of_decide_eq_true h
  have hn : (BitVec.ofNat 16 r.gapBlocks.length).toNat = r.gapBlocks.length := by
    rw [BitVec.toNat_ofNat]; omega
  have hm : (BitVec.ofNat 16 r.dupTSNs.length).toNat = r.dupTSNs.length := by
    rw [BitVec.toNat_ofNat]; omega
  have hlen : ((Chunk.sack f r).afterHeader k).length = 12 + 4 * r.gapBlocks.length + 4 * r.dupTSNs.length := by
    simp [Chunk.afterHeader]; omega
  have hbody : (Chunk.sack f r).body k = (Chunk.sack f r).afterHeader k :=
    List.take_of_length_le (by rw [hlen, Chunk.length]; omega)
  rw [hbody, parseSack, if_neg (by omega)]
  simp [Chunk.afterHeader, Reader.ofBytes, Reader.left, hn, hm, parseGaps_written, parseDups_written,
    Nat.mul_comm 4]

theorem parseShutdown_body (k : Codes) (f : Byte) (cum : U32) :
    parseShutdown f ((Chunk.shutdown f cum).body k) = some (.shutdown f cum) := by
  have hget := Reader.get4_be4 cum
  have hbody : (Chunk.shutdown f cum).body k = be4 cum := rfl
  simp [hbody, parseShutdown, hget]

/-- The body parser of a record's type reads the record back from its body. -/
theorem parseBody_body {k : Codes} (hk : k.Distinct) {c : Chunk} (h : c.wf k = true) :
    parseBody k (c.typeCode k) c.flag (c.body k) = some c := by
  cases c
  case unknown t f x =>
    obtain ⟨-, ht⟩ := (Bool.and_eq_true _ _).mp h
    have hkind : k.chunkKindOf t = none := chunkKindOf_none.2 (by simpa using ht)
    simp [Chunk.typeCode, Chunk.flag, parseBody, hkind, Chunk.body, Chunk.afterHeader, Chunk.length, take_padded]
  all_goals simp only [Chunk.typeCode, Chunk.flag, parseBody, hk.chunkKindOf]
  case data f r => exact parseData_body k f r
  case init => exact parseInit_body hk h
  case initAck => exact parseInitAck_body hk h
  case sack => exact parseSack_body h
  case heartbeat => exact parseHeartbeat_body hk (of_decide_eq_true h)
  case heartbeatAck => exact parseHeartbeatAck_body hk (of_decide_eq_true h)
  case shutdown f cum => exact parseShutdown_body k f cum
  case shutdownAck | cookieAck | shutdownComplete => rfl
  case abort | error | cookieEcho | reConfig | padding | forwardTSN =>
    simp [Chunk.body, Chunk.afterHeader, Chunk.length, take_padded]

end Sys2Proof

namespace Sys2Proof.Machine

theorem writerOk_ofSpace {sp : Space} (h : sp.wf = true) : WriterOk (Writer.ofSpace sp) :=
  ⟨h, Nat.le_of_eq (Nat.zero_add _), Nat.zero_le _⟩

/-- Serialising where there is room moves the cursor by GetSize and lays the image there, every other byte unchanged. -/
theorem serialize_effect {k : Codes} {c : Chunk} {wr : Writer} (h : WriterOk wr) (hw : c.wf k = true)
    (hr : c.size k ≤ wr.room) :
    ∃ wr', serialize k c wr = some (wr', c.size k) ∧ wr'.w = wr.w + c.size k ∧
      wr'.space.readBytes (wr.base + wr.w) (c.size k) = some (c.image k) ∧
      ∀ x, (x < wr.base + wr.w ∨ wr.base + wr.w + c.size k ≤ x) → wr'.space.byteAt x = wr.space.byteAt x := by
  obtain ⟨wr', hser, hput⟩ := serialize_ok h hw hr
  have hcur := hput.w
  have hread := hput.read h (by rwa [image_length])
  rw [image_length] at hcur hread
  exact ⟨wr', hser, hcur, hread⟩

/-- Settles O9: a refusal is the first branch of `Serialize`, a success puts the image at the cursor. -/
theorem serialiseWritesExactly : Obligations.SerialiseWritesExactly :=
  fun _ _ _ h => ⟨fun hno => if_pos hno, serialize_effect h⟩

/-- Settles O8: GetSize is the length rounded up to a multiple of 4, and a well-formed length fits its field. -/
theorem serialisedSize : Obligations.SerialisedSize := by
  intro k c h
  obtain ⟨hle, hpad, hmod, h4⟩ := size_law k c
  have hmax := wf_length h
  obtain ⟨l1, l0, himage, hlen⟩ := image_lengthField h
  exact ⟨image_length k c, hmod, by omega, by omega, hle, hpad, l1, l0, c.afterHeader k, himage, hlen⟩

/-- Settles O7: the image is read back from the space, `ParseChunk` hands the body parser exactly the body, and each of
the 17 body parsers inverts its serialiser (for INIT, INIT-ACK and the heartbeats, the parameter list stored again). -/
theorem chunkRoundTrip : Obligations.ChunkRoundTrip := by
  intro k c sp hk h hsp hsize
  have hroom : c.size k ≤ (Writer.ofSpace sp).room := Nat.le_of_eq hsize.symm
  obtain ⟨wr, hser, -, hread, -⟩ := serialize_effect (writerOk_ofSpace hsp) h hroom
  exact ⟨wr, c.image k, hser, hread, by rw [parseChunk_image h, parseBody_body hk h]⟩

end Sys2Proof.Machine
end

section
/-! PROOFS. The packet header (45_packet_header.md R299): the 12 bytes written parse back to the header, and a packet
that ReadPacket built passes the checksum test, for its checksum was taken while the field was zero (R296). -/

namespace Sys2Proof.Machine

/-! ## The header -/

/-- The 8 bytes of a header before its checksum field (45 R290). -/
def headerFields (h : PacketHeader) : List Byte :=
  be2 h.sourcePort ++ (be2 h.destinationPort ++ be4 h.verificationTag)

@[simp] theorem headerFields_length (h : PacketHeader) : (headerFields h).length = 8 := rfl
@[simp] theorem headerImage_length (h : PacketHeader) : (headerImage h).length = 12 := rfl

theorem headerImage_eq (h : PacketHeader) : headerImage h = headerFields h ++ le4 h.checksum := by
  simp only [headerImage, headerFields, List.append_assoc]

theorem le4_zero : le4 0 = zeros 4 := by decide

/-- Each field is read back from its image, the checksum with its bytes turned round. -/
theorem parseHeader_of_readBytes {rx : Space} {h : PacketHeader} (hread : rx.readBytes 0 12 = some (headerImage h)) :
    parseHeader rx = some h := by
  have himage : headerImage h =
      [h.sourcePort.extractLsb' 8 8, h.sourcePort.extractLsb' 0 8,
       h.destinationPort.extractLsb' 8 8, h.destinationPort.extractLsb' 0 8,
       h.verificationTag.extractLsb' 24 8, h.verificationTag.extractLsb' 16 8,
       h.verificationTag.extractLsb' 8 8, h.verificationTag.extractLsb' 0 8,
       h.checksum.extractLsb' 0 8, h.checksum.extractLsb' 8 8,
       h.checksum.extractLsb' 16 8, h.checksum.extractLsb' 24 8] := rfl
  simp only [parseHeader, hread, himage, ofBe2_extract, ofBe4_extract]

theorem parseHeader_ofBytes (h : PacketHeader) (body : List Byte) :
    parseHeader (Space.ofBytes (headerImage h ++ body)) = some h := by
  apply parseHeader_of_readBytes
  rw [Space.readBytes_ofBytes (by simp), List.drop_zero, List.take_left' (headerImage_length h)]

/-- R299, first law, with the frame of R292. -/
theorem serializeHeader_parseHeader (h : PacketHeader) {sp : Space} (hw : sp.wf = true) (hs : 12 ≤ sp.size) :
    ∃ wr, serializeHeader h (Writer.ofSpace sp) = some wr ∧ wr.w = 12 ∧ parseHeader wr.space = some h ∧
      ∀ a, 12 ≤ a → wr.space.byteAt a = sp.byteAt a := by
  obtain ⟨wr, hser, hput⟩ := serializeHeader_ok h hw hs
  obtain ⟨hread, hframe⟩ := hput.read (writerOk_ofSpace hw) (show (headerImage h).length ≤ sp.size from hs)
  exact ⟨wr, hser, hput.w, parseHeader_of_readBytes hread, fun a ha => hframe a (.inr ha)⟩

/-! ## The checksum -/

/-- The test of R297 on a packet, said of its bytes. -/
theorem checksumOk_ofBytes (h : PacketHeader) (body : List Byte) :
    checksumOk (Space.ofBytes (headerImage h ++ body)) h =
      (crc32c (headerFields h ++ (zeros 4 ++ body)) == h.checksum) := by
  have hbefore : (Space.ofBytes (headerImage h ++ body)).readBytes 0 8 = some (headerFields h) := by
    rw [Space.readBytes_ofBytes (by simp; omega), List.drop_zero, headerImage_eq, List.append_assoc,
      List.take_left' (headerFields_length h)]
  have hafter : (Space.ofBytes (headerImage h ++ body)).readBytes 12
      ((Space.ofBytes (headerImage h ++ body)).size - 12) = some body := by
    rw [Space.readBytes_ofBytes (by simp), List.drop_left' (headerImage_length h)]
    simp
  simp only [checksumOk, hbefore, hafter, List.append_assoc]

/-- Overwriting the middle of a stretch of memory changes that part of its bytes alone. -/
theorem readBytes_writeBytes_middle {m : Memory} (h : m.wf = true) {a n : Nat} {pre mid new post : List Byte}
    (hread : m.readBytes a n = pre ++ (mid ++ post)) (hlen : new.length = mid.length) :
    (m.writeBytes (a + pre.length) new).readBytes a n = pre ++ (new ++ post) := by
  have hn : n = pre.length + (new.length + post.length) := by
    have := congrArg List.length hread
    simp only [Memory.readBytes_length, List.length_append] at this
    omega
  subst hn
  rw [Memory.readBytes_append, Memory.readBytes_append] at hread ⊢
  obtain ⟨hpre, hrest⟩ := List.append_inj hread (by simp)
  obtain ⟨-, hpost⟩ := List.append_inj hrest (by simp [hlen])
  rw [readBytes_writeBytes_of_disjoint h _ _ _ _ (.inl (Nat.le_refl _)), Memory.readBytes_writeBytes h,
    readBytes_writeBytes_of_disjoint h _ _ _ _ (.inr (Nat.le_refl _)), hpre, hpost]

/-- R296: the checksum of the packet with its field zero replaces that field. -/
theorem patchChecksum_ok {wr : Writer} (h : WriterOk wr) (hbase : wr.base = 0) {fields body : List Byte}
    (hlen : fields.length = 8) (hread : wr.space.readBytes 0 wr.w = some (fields ++ (zeros 4 ++ body))) :
    ∃ wr', patchChecksum wr = some wr' ∧ wr'.w = wr.w ∧ wr'.space.readBytes 0 wr.w =
      some (fields ++ (le4 (crc32c (fields ++ (zeros 4 ++ body))) ++ body)) := by
  obtain ⟨hwf, hcap, hroom⟩ := h
  have hin : 0 + wr.w ≤ wr.space.size := by omega
  have hmem : wr.space.mem.readBytes 0 wr.w = fields ++ (zeros 4 ++ body) := by
    rw [Space.readBytes_some hin] at hread
    exact Option.some.inj hread
  have hw : 8 + 4 ≤ wr.w := by
    have := congrArg List.length hmem
    simp only [Memory.readBytes_length, List.length_append, hlen, zeros_length] at this
    omega
  obtain ⟨sp, hwrite⟩ : ∃ sp,
      wr.space.writeBytes (wr.base + 8) (le4 (crc32c (fields ++ (zeros 4 ++ body)))) = some sp :=
    ⟨_, Space.writeBytes_some (by rw [le4_length]; omega)⟩
  obtain ⟨-, -, hsize, hspace⟩ := Space.writeBytes_spec hwf hwrite
  refine ⟨{ wr with space := sp }, ?_, rfl, ?_⟩
  · simp only [patchChecksum, hread, Option.bind_eq_bind, Option.bind_some, Writer.patch4le, if_pos hw, hwrite,
      Option.map_some]
  · rw [Space.readBytes_some (by rw [hsize]; exact hin), hspace, hbase, ← hlen]
    exact congrArg some (readBytes_writeBytes_middle (Space.wf_mem hwf) hmem rfl)

/-! ## The packet -/

/-- The chunk fill leaves the bytes before its cursor alone. -/
theorem Filled.readBytes_before {wr wr' : Writer} (f : Filled wr wr') {a n : Nat} (h : a + n ≤ wr.base + wr.w) :
    wr'.space.mem.readBytes a n = wr.space.mem.readBytes a n :=
  Memory.readBytes_congr _ _ a n fun i hi => f.before (a + i) (by omega)

/-- After the chunk fill the header still stands in front. -/
theorem Filled.readBytes_header {sp : Space} {h : PacketHeader} {w1 w2 : Writer} (hw : sp.wf = true)
    (p : Put (headerImage h) (Writer.ofSpace sp) w1) (f : Filled w1 w2) :
    ∃ body, w2.space.readBytes 0 w2.w = some (headerImage h ++ body) := by
  have hw1 : w1.w = 12 := p.w
  have hhead : w2.space.mem.readBytes 0 12 = headerImage h := by
    rw [f.readBytes_before (by omega), p.mem]
    exact Memory.readBytes_writeBytes (Space.wf_mem hw) 0 (headerImage h)
  obtain ⟨-, hcap, hroom⟩ := f.ok
  obtain ⟨n, hn⟩ := Nat.exists_eq_add_of_le (hw1 ▸ f.le)
  exact ⟨_, by rw [Space.readBytes_some (by omega), hn, Memory.readBytes_append, hhead]⟩

/-- The header ReadPacket writes first, its checksum the placeholder 0 (46 R325). -/
abbrev outgoingHeader (s : State) : PacketHeader := ⟨s.localPort, s.remotePort, s.remoteVerificationTag, 0⟩

/-- A packet built is a header with the checksum of the packet, and what the chunk fill left behind the header. -/
theorem buildPacket_image {s : State} {sp : Space} {rest : List Chunk} {wr : Writer} (hw : sp.wf = true)
    (hs : 12 ≤ sp.size) (hb : buildPacket s sp = .ok (rest, wr)) :
    ∃ (h : PacketHeader) (body : List Byte), h.checksum = crc32c (headerFields h ++ (zeros 4 ++ body)) ∧
      wr.space.readBytes 0 wr.w = some (headerImage h ++ body) := by
  obtain ⟨w1, hser, hput⟩ := serializeHeader_ok (outgoingHeader s) hw hs
  obtain ⟨rest', w2, hfill, -, f⟩ := fillPacket_ok s.params.codes s.queue 0 w1 hput.ok
  obtain ⟨body, hread⟩ := f.readBytes_header hw hput
  rw [headerImage_eq, List.append_assoc, le4_zero] at hread
  obtain ⟨w3, hpatch, hw3, himage⟩ :=
    patchChecksum_ok f.ok (f.base.trans hput.base) (headerFields_length _) hread
  simp only [buildPacket, hser, hfill, hpatch] at hb
  cases hb
  refine ⟨{ outgoingHeader s with checksum := crc32c (headerFields (outgoingHeader s) ++ (zeros 4 ++ body)) },
    body, rfl, ?_⟩
  rw [hw3, himage, headerImage_eq, List.append_assoc]
  rfl

/-- A packet is produced only where its header has room (R324). -/
theorem packetReady_room {capacity : Nat} {s : State} (h : s.packetReady capacity = true) : 12 ≤ capacity := by
  cases hq : s.queue with
  | nil => simp [State.packetReady, hq] at h
  | cons c q =>
    simp only [State.packetReady, hq, Bool.and_eq_true, decide_eq_true_eq] at h
    exact (Nat.le_add_right _ _).trans h.2

/-- A command that answers a next state ran between operations. -/
theorem betweenOperations_next {s s' : State} {k : Outcome} (h : betweenOperations s k = .next s') : k = .next s' := by
  cases hi : s.ingress with
  | none => rwa [betweenOperations_none hi] at h
  | some g => simp [betweenOperations, hi] at h

/-- Where ReadPacket leaves a packet, it is the one `buildPacket` built in the host's buffer. -/
theorem readPacket_packet {s s' : State} {tx : List Byte} (h : exec (.readPacket tx) s = .next s') (hwp : s'.wp ≠ 0) :
    12 ≤ (Space.ofBytes tx).size ∧ ∃ rest wr, buildPacket s (Space.ofBytes tx) = .ok (rest, wr) ∧
      s'.tx = wr.space ∧ s'.wp = wr.w := by
  have hrun := betweenOperations_next (show execReadPacket tx s = .next s' from h)
  dsimp only at hrun
  split at hrun
  next hready =>
    split at hrun
    next => cases hrun
    next rest wr hbuild =>
      cases hrun
      exact ⟨packetReady_room hready, rest, wr, hbuild, rfl, rfl⟩
  next =>
    cases hrun
    exact absurd rfl hwp

/-- R299, second law. -/
theorem readPacket_checksumOk {s s' : State} {tx : List Byte} (h : exec (.readPacket tx) s = .next s')
    (hwp : s'.wp ≠ 0) :
    ∃ bytes hd, s'.tx.readBytes 0 s'.wp = some bytes ∧ parseHeader (Space.ofBytes bytes) = some hd ∧
      checksumOk (Space.ofBytes bytes) hd = true := by
  obtain ⟨hroom, rest, wr, hbuild, htx, hw⟩ := readPacket_packet h hwp
  obtain ⟨hd, body, hsum, hread⟩ := buildPacket_image (Space.ofBytes_wf tx) hroom hbuild
  refine ⟨headerImage hd ++ body, hd, by rw [htx, hw, hread], parseHeader_ofBytes hd body, ?_⟩
  rw [checksumOk_ofBytes, hsum, beq_self_eq_true]

/-- Settles O12: the header's images invert field by field; the checksum of a packet was taken over its bytes with the
field still the placeholder 0, which is what the test recomputes. -/
theorem packetHeaderLaws : Obligations.PacketHeaderLaws :=
  ⟨fun h _ => serializeHeader_parseHeader h, fun _ _ _ => readPacket_checksumOk⟩

end Sys2Proof.Machine
end

section
/-! PROOFS. The association commands (46_association_commands.md): what the two status commands hand over (R330, R331),
and the step that ends a packet, by the branches of its acknowledgement decision (R323). -/

namespace Sys2Proof.Machine

/-! ## The status commands -/

theorem exec_getState {s : State} (hi : s.ingress = none) : exec .getState s = .next (s.answer (.state s.state)) :=
  betweenOperations_none hi _

theorem exec_getPendingData {s : State} (hi : s.ingress = none) :
    exec .getPendingData s = .next (s.answer (.bool s.pendingData)) :=
  betweenOperations_none hi _

/-- Settles O28: both commands answer a register between operations, and a terminated block is in Closed. -/
theorem statusCommands : Obligations.StatusCommands := by
  refine fun s hi => ⟨exec_getState hi, exec_getPendingData hi, fun hinv ht => ?_⟩
  rw [← hinv.terminatedClosed ht]
  exact exec_getState hi

/-! ## The end of a packet -/

theorem Slot.isArmed_iff_ne_idle {v : Slot} : v.isArmed = true ↔ v ≠ .idle := by
  cases v <;> simp [Slot.isArmed]

section
variable {s : State}

/-- No acknowledgement is pending. -/
theorem decideAck_nothingPending (hp : s.pendingAcknowledge = false) : decideAck s = s := by
  simp [decideAck, hp]

/-- First branch of R323. -/
theorem decideAck_dueNow (hp : s.pendingAcknowledge = true) (h0 : s.pendingAcknowledgeTimeout = 0) :
    decideAck s = s.acknowledge := by
  rw [decideAck, if_pos hp, if_pos h0]

/-- Second branch of R323. -/
theorem decideAck_alreadyArmed (hp : s.pendingAcknowledge = true) (h0 : s.pendingAcknowledgeTimeout ≠ 0)
    (ha : s.timers.sack ≠ .idle) : decideAck s = s := by
  rw [decideAck, if_pos hp, if_neg h0, if_pos (Slot.isArmed_iff_ne_idle.2 ha)]

/-- Third branch of R323. -/
theorem decideAck_arms (hp : s.pendingAcknowledge = true) (h0 : s.pendingAcknowledgeTimeout ≠ 0)
    (ha : s.timers.sack = .idle) : decideAck s = s.arm .sack s.pendingAcknowledgeTimeout := by
  rw [decideAck, if_pos hp, if_neg h0, if_neg (mt Slot.isArmed_iff_ne_idle.1 (not_not_intro ha))]

/-- The loop of R322 ends where no chunk header fits any more. -/
theorem step_endOfPacket {rx : Space} {pc : Nat} (hi : s.ingress = some ⟨rx, pc, none⟩) (hend : rx.size < pc + 4) :
    step s = .next (finishPacket s) := by
  have hleft : rx.size - pc < 4 := by omega
  have hfetch : fetch s = .endOfPacket := by simp [fetch, hi, hleft]
  rw [step, hfetch]

end

/-- Settles O48: the step ends the packet, and each clause is one branch of the decision. -/
theorem endOfPacket : Obligations.EndOfPacket := by
  intro s rx pc hi hend
  rw [step_endOfPacket hi hend, finishPacket]
  refine ⟨fun hp => ?_, fun hp h0 => ?_, fun hp h0 ha => ?_, fun hp h0 ha => ?_⟩
  · rw [decideAck_nothingPending hp]
    rfl
  · rw [decideAck_dueNow hp h0, State.answer, State.acknowledge_results]
  · rw [decideAck_alreadyArmed hp h0 ha]
    rfl
  · rw [decideAck_arms hp h0 ha]
    rfl

end Sys2Proof.Machine
end

section
/-! PROOFS. The fire of the SACK timer (60_exceptions.md R423): what `Acknowledge` emits where the slot is already idle,
and the two outcomes of a fire on an armed slot. -/

namespace Sys2Proof.Machine

/-! ## Acknowledge on an idle SACK slot -/

namespace State

/-- `Enqueue` adds at most the edge event (46 R316). -/
theorem enqueue_events_cases (c : Chunk) (s : State) :
    (s.enqueue c).events = s.events ∨ (s.enqueue c).events = s.events ++ [.pendingData] := by
  unfold enqueue
  rcases enqueueResult_cases c s with ⟨-, h⟩ | ⟨-, w, -, h⟩ | ⟨-, -, h⟩ <;> rw [h]
  · exact .inl rfl
  · exact .inl rfl
  · unfold append
    split
    · exact .inr rfl
    · exact .inl rfl

theorem reportWalk_timers (k : AckWalk) (s : State) : (s.reportWalk k).timers = s.timers := by
  simp [reportWalk, foldl_takeError_goOn]

/-- The part of `Acknowledge` after the walk emits only what its `Enqueue` of the SACK emits. -/
theorem reportWalk_events_cases (k : AckWalk) (s : State) :
    (s.reportWalk k).events = s.events ∨ (s.reportWalk k).events = s.events ++ [.pendingData] := by
  simp only [reportWalk, foldl_takeError_goOn]
  exact enqueue_events_cases _ _

/-- Whatever `Acknowledge` reports, it comes to its end with the timers as they were and at most the edge event new. -/
theorem acknowledge_eq_endAcknowledge (s : State) : ∃ t : State, s.acknowledge = t.endAcknowledge ∧
    t.timers = s.timers ∧ (t.events = s.events ∨ t.events = s.events ++ [.pendingData]) := by
  unfold acknowledge
  split
  · exact ⟨_, rfl, reportWalk_timers _ s, reportWalk_events_cases _ s⟩
  · split
    · exact ⟨s, rfl, rfl, .inl rfl⟩
    · exact ⟨_, rfl, reportWalk_timers _ s, reportWalk_events_cases _ s⟩

/-- On an idle slot the `Cancel` that ends `Acknowledge` finds nothing (R423). -/
theorem endAcknowledge_of_idle {s : State} (h : s.timers.sack = .idle) :
    s.endAcknowledge = { s with pendingAcknowledge := false } := by
  rcases cancel_cases .sack s with ⟨-, hc⟩ | ⟨ha, -⟩
  · rw [endAcknowledge, hc]
  · simp [timer, h, Slot.isArmed] at ha

/-- `Acknowledge` on an idle slot: the slots stay, the flag is cleared, the new events are none or the edge event. -/
theorem acknowledge_of_idle {s : State} (h : s.timers.sack = .idle) :
    s.acknowledge.timers = s.timers ∧ s.acknowledge.pendingAcknowledge = false ∧
    (s.acknowledge.events = s.events ∨ s.acknowledge.events = s.events ++ [.pendingData]) := by
  obtain ⟨t, hack, htm, hev⟩ := acknowledge_eq_endAcknowledge s
  rw [hack, endAcknowledge_of_idle (htm ▸ h)]
  exact ⟨htm, rfl, hev⟩

end State

/-! ## The fire -/

section
variable {s : State} {d : Nat} (hi : s.ingress = none) (ha : s.timers.sack = .armed d)
include hi ha

/-- A fire on the armed slot makes it idle, then runs its handler in Established only. -/
theorem exec_timerFireSack_armed : exec .timerFireSack s = .next
    (if s.state = .established then State.acknowledge (s.setTimer .sack .idle)
     else (s.setTimer .sack .idle).raise (.timerIgnored .sack s.state)) := by
  have harmed : (s.timer .sack).isArmed ≠ false := by simp [State.timer, ha, Slot.isArmed]
  rw [exec, execTimerFireSack, fireTimer_cases hi, if_neg harmed]

theorem exec_timerFireSack_established (he : s.state = .established) :
    exec .timerFireSack s = .next (State.acknowledge { s with timers := { s.timers with sack := .idle } }) := by
  rw [exec_timerFireSack_armed hi ha, if_pos he]
  rfl

theorem exec_timerFireSack_ignored (he : s.state ≠ .established) :
    exec .timerFireSack s = .next { s with
      timers := { s.timers with sack := .idle }, log := s.log ++ [.timerIgnored .sack s.state] } := by
  rw [exec_timerFireSack_armed hi ha, if_neg he]
  rfl

end

/-- Settles O32: the fire makes the slot idle before its handler runs, and `Acknowledge` on an idle slot emits at most
the edge event of its `Enqueue`. -/
theorem sackTimerFire : Obligations.SackTimerFire := by
  intro s d hi ha
  refine ⟨fun he => ?_, exec_timerFireSack_ignored hi ha⟩
  obtain ⟨htm, hp, hev⟩ :=
    State.acknowledge_of_idle (s := { s with timers := { s.timers with sack := .idle } }) rfl
  refine ⟨_, rfl, exec_timerFireSack_established hi ha he, htm, ?noCancel, ?keepsEvents, hp,
    (State.acknowledge_state _).trans he⟩
  case noCancel => rcases hev with hev | hev <;> simp [hev]
  case keepsEvents => rcases hev with hev | hev <;> simp [hev]

end Sys2Proof.Machine
end

section
/-! PROOFS. The decoder (30_encoding.md R101 to R105): what a well-formed instruction's operands read back to, and which
instruction the selection gives. -/

namespace Sys2Proof

/-! ## The selection inverts the tables -/

theorem selectChunk_kind {k : Codes} {t : Byte} {x : ChunkKind} (h : k.chunkKindOf t = some x) (c : RawChunk) :
    selectChunk k t c = Instr.ofChunk c x := by
  rw [selectChunk, h]

theorem selectParam_kind {k : Codes} {t : U16} {x : ParamKind} (h : k.paramKindOf t = some x) (p : RawParam) :
    selectParam k t p = Instr.ofParam p x := by
  rw [selectParam, h]

/-- A well-formed chunk instruction is the one its own type and operands select (R101). -/
theorem selectChunk_chunkOperands {k : Codes} (hk : k.Distinct) {i : Instr} {t : Byte} {c : RawChunk}
    (h : i.chunkOperands k = some (t, c)) (hw : i.wellFormed k = true) : selectChunk k t c = i := by
  cases i <;> simp only [Instr.chunkOperands, Option.some.injEq, Prod.mk.injEq, reduceCtorEq] at h
  all_goals obtain ⟨rfl, rfl⟩ := h
  case unknown t c =>
    obtain ⟨-, ht⟩ := (Bool.and_eq_true _ _).mp hw
    exact selectChunk_default c (by simpa using ht)
  all_goals exact selectChunk_kind (hk.chunkKindOf _) _

/-- The same for a parameter instruction (R104). -/
theorem selectParam_paramOperands {k : Codes} (hk : k.Distinct) {i : Instr} {t : U16} {p : RawParam}
    (h : i.paramOperands k = some (t, p)) (hw : i.wellFormed k = true) : selectParam k t p = i := by
  cases i <;> simp only [Instr.paramOperands, Option.some.injEq, Prod.mk.injEq, reduceCtorEq] at h
  all_goals obtain ⟨rfl, rfl⟩ := h
  case unrecognisedParameter t p =>
    obtain ⟨-, ht⟩ := (Bool.and_eq_true _ _).mp hw
    exact selectParam_default p (by simpa using ht)
  all_goals exact selectParam_kind (hk.paramKindOf _) _

/-! ## An instruction's code, by the three kinds of instruction -/

theorem chunkOperands_wellFormed {k : Codes} {i : Instr} {t : Byte} {c : RawChunk}
    (h : i.chunkOperands k = some (t, c)) (hw : i.wellFormed k = true) : c.wellFormed = true := by
  cases i <;> simp only [Instr.chunkOperands, Option.some.injEq, Prod.mk.injEq, reduceCtorEq] at h
  all_goals obtain ⟨-, rfl⟩ := h
  case unknown => exact ((Bool.and_eq_true _ _).mp hw).1
  all_goals exact hw

theorem paramOperands_wellFormed {k : Codes} {i : Instr} {t : U16} {p : RawParam}
    (h : i.paramOperands k = some (t, p)) (hw : i.wellFormed k = true) : p.wellFormed = true := by
  cases i <;> simp only [Instr.paramOperands, Option.some.injEq, Prod.mk.injEq, reduceCtorEq] at h
  all_goals obtain ⟨-, rfl⟩ := h
  case unrecognisedParameter => exact ((Bool.and_eq_true _ _).mp hw).1
  all_goals exact hw

/-- Every instruction is a chunk, a parameter or a command, and its code is made of its operands accordingly. -/
theorem encode_cases (k : Codes) (i : Instr) :
    (∃ t c, i.chunkOperands k = some (t, c) ∧ encode k i = encodeChunk t c) ∨
    (∃ t p, i.paramOperands k = some (t, p) ∧ encode k i = encodeParam t p) ∨
    ∃ c, encode k i = .command c ∧ decodeCommand c = .ok i := by
  cases i
  case data | init | initAck | sack | heartbeat | heartbeatAck | abortChunk | shutdown | shutdownAck | error
      | cookieEcho | cookieAck | shutdownComplete | reConfig | padding | forwardTSN | unknown =>
    exact .inl ⟨_, _, rfl, rfl⟩
  case heartbeatInfo | ipv4Address | ipv6Address | stateCookie | cookiePreservative | hostName | supportedExtensions
      | forwardTSNSupported | unrecognisedParameter =>
    exact .inr (.inl ⟨_, _, rfl, rfl⟩)
  all_goals exact .inr (.inr ⟨_, rfl, rfl⟩)

/-- A well-formed chunk's operands are read back, whatever follows its body (R94). -/
theorem rawChunk_of_wellFormed {c : RawChunk} (h : c.wellFormed = true) (tail : List Byte) :
    rawChunk c.flag c.length (c.body ++ tail) = c := by
  have hl : c.length.toNat = 4 + c.body.length := by simpa [RawChunk.wellFormed] using h
  rw [rawChunk, if_pos (by rw [List.length_append]; omega), List.take_left' (by omega)]

theorem rawParam_of_wellFormed {p : RawParam} (h : p.wellFormed = true) (tail : List Byte) :
    rawParam p.length (p.value ++ tail) = p := by
  have hl : p.length.toNat = 4 + p.value.length := by simpa [RawParam.wellFormed] using h
  rw [rawParam, if_pos (by rw [List.length_append]; omega), List.take_left' (by omega)]

theorem decode_encodeChunk (k : Codes) (t : Byte) {c : RawChunk} (h : c.wellFormed = true) (more : List Byte) :
    decode k ((encodeChunk t c).followedBy more) = .ok (selectChunk k t c) := by
  simp only [encodeChunk, Code.followedBy, be2_eq, List.cons_append, List.nil_append, decode, ofBe2_extract,
    List.append_assoc, rawChunk_of_wellFormed h]

theorem decode_encodeParam (k : Codes) (t : U16) {p : RawParam} (h : p.wellFormed = true) (more : List Byte) :
    decode k ((encodeParam t p).followedBy more) = .ok (selectParam k t p) := by
  simp only [encodeParam, Code.followedBy, be2_eq, List.cons_append, List.nil_append, decode, ofBe2_extract,
    List.append_assoc, rawParam_of_wellFormed h]

/-- Settles O2: the operands are read back from the code, and select the instruction they were taken from. -/
theorem decodeOfEncode : Obligations.DecodeOfEncode := by
  intro k i more hk hw
  rcases encode_cases k i with ⟨t, c, ho, he⟩ | ⟨t, p, ho, he⟩ | ⟨c, he, hd⟩ <;> rw [he]
  · rw [decode_encodeChunk k t (chunkOperands_wellFormed ho hw), selectChunk_chunkOperands hk ho hw]
  · rw [decode_encodeParam k t (paramOperands_wellFormed ho hw), selectParam_paramOperands hk ho hw]
  · exact hd

/-! ## Every header is an instruction -/

theorem decode_chunkHeader (k : Codes) (t f l1 l0 : Byte) (tail : List Byte) : ∃ i c,
    decode k (.chunk (t :: f :: l1 :: l0 :: tail)) = .ok i ∧ i.chunkOperands k = some (t, c) ∧
    c.flag = f ∧ c.length = ofBe2 l1 l0 ∧
    (c.wellFormed = true ↔ 4 ≤ c.length.toNat ∧ c.length.toNat ≤ 4 + tail.length) ∧
    (c.wellFormed = true → c.body = tail.take (c.length.toNat - 4)) ∧
    (i = .unknown t c ↔ t ∉ k.chunkTypes) := by
  obtain ⟨hflag, hlen, hwf, hbody⟩ := rawChunk_facts f (ofBe2 l1 l0) tail
  exact ⟨_, _, rfl, selectChunk_operands k t _, hflag, hlen, hlen.symm ▸ hwf, hlen.symm ▸ hbody,
    selectChunk_unknown k t _⟩

theorem decode_paramHeader (k : Codes) (t1 t0 l1 l0 : Byte) (tail : List Byte) : ∃ i p,
    decode k (.param (t1 :: t0 :: l1 :: l0 :: tail)) = .ok i ∧ i.paramOperands k = some (ofBe2 t1 t0, p) ∧
    p.length = ofBe2 l1 l0 ∧
    (p.wellFormed = true ↔ 4 ≤ p.length.toNat ∧ p.length.toNat ≤ 4 + tail.length) ∧
    (p.wellFormed = true → p.value = tail.take (p.length.toNat - 4)) ∧
    (i = .unrecognisedParameter (ofBe2 t1 t0) p ↔ ofBe2 t1 t0 ∉ k.paramTypes) := by
  obtain ⟨hlen, hwf, hvalue⟩ := rawParam_facts (ofBe2 l1 l0) tail
  exact ⟨_, _, rfl, selectParam_operands k _ _, hlen, hlen.symm ▸ hwf, hlen.symm ▸ hvalue,
    selectParam_unknown k _ _⟩

/-- Settles O3: the selection carries the header's operands, and a parser's entry test is its first line. -/
theorem everyHeaderDecodes : Obligations.EveryHeaderDecodes :=
  ⟨decode_chunkHeader, decode_paramHeader, fun _ _ _ _ => rfl, rfl, rfl, Codes.default_distinct⟩

/-- Settles O1: each word is short enough to be decoded by evaluation. -/
theorem writtenOutWordsDecode : Obligations.WrittenOutWordsDecode := by
  unfold Obligations.WrittenOutWordsDecode
  decide

end Sys2Proof
end

section
/-! PROOFS. The byte spaces and `patch4le` (20_memory.md R68, 40_buffer_codec.md R140, R141): a write is read back and
changes nothing else, equal contents are equal data. -/

namespace Sys2Proof

namespace Memory

/-- The first cell of a canonical list is the lowest address that does not read 0. -/
theorem head_le_of_read_ne_zero {lo k a : Nat} {b : Byte} {m : Memory} (h : wfFrom lo ((k, b) :: m) = true)
    (ha : read ((k, b) :: m) a ≠ 0) : k ≤ a := by
  by_contra hlt
  obtain ⟨-, hb, hm⟩ := wfFrom_cons.1 h
  have hwf : wfFrom k ((k, b) :: m) = true := wfFrom_cons.2 ⟨Nat.le_refl k, hb, hm⟩
  exact ha (read_of_lt hwf (by omega))

theorem read_head (k : Nat) (b : Byte) (m : Memory) : read ((k, b) :: m) k = b := if_pos rfl

/-- A canonical list that reads 0 everywhere has no cell. -/
theorem eq_nil_of_read_zero {lo : Nat} : ∀ {m : Memory}, wfFrom lo m = true → (∀ a, m.read a = 0) → m = []
  | [], _, _ => rfl
  | (k, b) :: m, h, hz => absurd ((read_head k b m).symm.trans (hz k)) (wfFrom_cons.1 h).2.1

/-- Two canonical lists that read alike have the same first cell, and their rests read alike. -/
theorem cons_eq_cons_of_read_eq {lo lo' k k' : Nat} {b b' : Byte} {m m' : Memory}
    (h : wfFrom lo ((k, b) :: m) = true) (h' : wfFrom lo' ((k', b') :: m') = true)
    (hread : ∀ a, read ((k, b) :: m) a = read ((k', b') :: m') a) :
    k = k' ∧ b = b' ∧ ∀ a, m.read a = m'.read a := by
  obtain ⟨-, hb, hm⟩ := wfFrom_cons.1 h
  obtain ⟨-, hb', hm'⟩ := wfFrom_cons.1 h'
  have hle : k' ≤ k := head_le_of_read_ne_zero h' (by rw [← hread, read_head]; exact hb)
  have hge : k ≤ k' := head_le_of_read_ne_zero h (by rw [hread, read_head]; exact hb')
  obtain rfl : k = k' := Nat.le_antisymm hge hle
  refine ⟨rfl, by simpa only [read_head] using hread k, fun a => ?_⟩
  rcases Nat.lt_or_ge a (k + 1) with ha | ha
  · rw [read_of_lt hm ha, read_of_lt hm' ha]
  · have hne : a ≠ k := by omega
    simpa only [read, if_neg hne] using hread a

theorem eq_of_read_eq : ∀ {m m' : Memory} {lo lo' : Nat}, wfFrom lo m = true → wfFrom lo' m' = true →
    (∀ a, m.read a = m'.read a) → m = m'
  | [], _, _, _, _, h', hread => (eq_nil_of_read_zero h' fun a => (hread a).symm).symm
  | _ :: _, [], _, _, h, _, hread => eq_nil_of_read_zero h hread
  | (k, b) :: m, (k', b') :: m', _, _, h, h', hread => by
    obtain ⟨rfl, rfl, hrest⟩ := cons_eq_cons_of_read_eq h h' hread
    rw [eq_of_read_eq (wfFrom_cons.1 h).2.2 (wfFrom_cons.1 h').2.2 hrest]

end Memory

namespace Space

/-- The whole effect of a write inside the space: canonical, read back, every other byte as before. -/
theorem writeBytes_effect {sp : Space} {a : Nat} {bs : List Byte} (hw : sp.wf = true)
    (hin : a + bs.length ≤ sp.size) : ∃ sp', sp.writeBytes a bs = some sp' ∧ sp'.wf = true ∧ sp'.size = sp.size ∧
      sp'.readBytes a bs.length = some bs ∧
      ∀ x, (x < a ∨ a + bs.length ≤ x) → sp'.byteAt x = sp.byteAt x := by
  obtain ⟨sp', hwrite⟩ : ∃ sp', sp.writeBytes a bs = some sp' := ⟨_, writeBytes_some hin⟩
  obtain ⟨-, hwf, hsize, hmem⟩ := writeBytes_spec hw hwrite
  refine ⟨sp', hwrite, hwf, hsize, ?_, fun x hx => ?_⟩
  · rw [readBytes_some (hsize.symm ▸ hin), hmem, Memory.readBytes_writeBytes (wf_mem hw)]
  · rw [byteAt, byteAt, hmem, Memory.read_writeBytes bs _ x (wf_mem hw), dif_neg (by omega)]

/-- Each byte written stands at its address. -/
theorem byteAt_of_writeBytes {sp sp' : Space} {a : Nat} {bs : List Byte} (hw : sp.wf = true)
    (h : sp.writeBytes a bs = some sp') {i : Nat} (hi : i < bs.length) : sp'.byteAt (a + i) = bs[i] := by
  obtain ⟨-, -, -, hmem⟩ := writeBytes_spec hw h
  rw [byteAt, hmem, Memory.read_writeBytes bs a (a + i) (wf_mem hw), dif_pos (by omega)]
  simp

theorem writeBytes_beyond {sp : Space} {a : Nat} {bs : List Byte} (h : sp.size < a + bs.length) :
    sp.writeBytes a bs = none := if_neg (Nat.not_le.2 h)

theorem readBytes_beyond {sp : Space} {a n : Nat} (h : sp.size < a + n) : sp.readBytes a n = none :=
  if_neg (Nat.not_le.2 h)

end Space

/-- Settles O4: the effect of a write, the bounds test of both primitives, and the canonical form read cell by cell. -/
theorem spaceReadsBackAndIsCanonical : Obligations.SpaceReadsBackAndIsCanonical :=
  ⟨fun _ _ _ hw => ⟨Space.writeBytes_effect hw, Space.writeBytes_beyond⟩, fun _ _ _ => Space.readBytes_beyond,
    fun _ _ => Memory.eq_of_read_eq⟩

namespace Machine

/-- Inside what has been written, `patch4le` is a write of the least-significant-first image, the cursor unmoved. -/
theorem patch4le_some {wr : Writer} (h : WriterOk wr) {a : Nat} (ha : a + 4 ≤ wr.w) (v : U32) :
    ∃ sp, wr.space.writeBytes (wr.base + a) (le4 v) = some sp ∧ wr.patch4le a v = some { wr with space := sp } := by
  obtain ⟨-, hcap, hcur⟩ := h
  have hwrite := Space.writeBytes_some (sp := wr.space) (a := wr.base + a) (bs := le4 v) (by rw [le4_length]; omega)
  exact ⟨_, hwrite, by rw [Writer.patch4le, if_pos ha, hwrite]; rfl⟩

/-- Settles O6: the four bytes of the image stand where `patch4le` writes them. -/
theorem patchLittleEndian : Obligations.PatchLittleEndian := by
  intro wr a v h
  refine ⟨fun ha => ?_, fun ha => if_neg (Nat.not_le.2 ha)⟩
  obtain ⟨sp, hwrite, hpatch⟩ := patch4le_some h ha v
  have hbyte := fun i (hi : i < 4) => Space.byteAt_of_writeBytes h.1 hwrite (i := i) (by rwa [le4_length])
  obtain ⟨hin, -⟩ := Space.writeBytes_spec h.1 hwrite
  obtain ⟨sp', hwrite', -, -, -, hframe⟩ := Space.writeBytes_effect h.1 hin
  obtain rfl : sp' = sp := Option.some.inj (hwrite'.symm.trans hwrite)
  exact ⟨_, hpatch, rfl, hbyte 0 (by decide), hbyte 1 (by decide), hbyte 2 (by decide), hbyte 3 (by decide), hframe⟩

end Machine

end Sys2Proof
end

section
/-! PROOFS. `Wrap` on a sequence that only moves forward (41_seqnum_wrapper.md R168): each extended value is the mark
plus the distance moved, whether or not the raw value wrapped. -/

namespace Sys2Proof.Machine

namespace SeqWrapper

section
variable {n e : Nat} {w : SeqWrapper n e} {a b : BitVec n}

/-- A move forward of R168: by at most half the range, and by less where the raw value wraps. -/
abbrev Forward (a b : BitVec n) : Prop :=
  0 < (b - a).toNat ∧ (b - a).toNat ≤ 2 ^ (n - 1) ∧ (b.toNat < a.toNat → (b - a).toNat < 2 ^ (n - 1))

/-- The wrapper stands on the raw value `a`: it was the last one to move the mark. -/
structure StandsOn (w : SeqWrapper n e) (a : BitVec n) : Prop where
  last : w.maxSeqNum = a
  mark : w.MarkAgrees

theorem two_pow_pred (h1 : 1 ≤ n) : 2 ^ n = 2 * 2 ^ (n - 1) := by
  obtain ⟨m, rfl⟩ := Nat.exists_eq_add_of_le' h1
  rw [Nat.add_sub_cancel, Nat.pow_succ']

theorem sub_toNat_of_le (h : a.toNat ≤ b.toNat) : (b - a).toNat = b.toNat - a.toNat :=
  BitVec.toNat_sub_of_le h

theorem sub_toNat_of_lt (h : b.toNat < a.toNat) : (b - a).toNat = 2 ^ n + b.toNat - a.toNat := by
  have ha := a.isLt
  rw [BitVec.toNat_sub, show 2 ^ n - a.toNat + b.toNat = 2 ^ n + b.toNat - a.toNat by omega, Nat.mod_eq_of_lt (by omega)]

/-- A forward move without a wrap stays in the cycle. -/
theorem wrap_forward_within (hn : n < e) (h : w.StandsOn a) (hf : Forward a b) (hle : a.toNat < b.toNat) :
    (w.wrap (2 ^ (n - 1)) b).1.toNat = w.maxExtSeqNum.toNat + (b - a).toNat ∧
      (w.wrap (2 ^ (n - 1)) b).2 = ⟨w.cycles, b, (w.wrap (2 ^ (n - 1)) b).1⟩ := by
  obtain ⟨rfl, hmark⟩ := h
  obtain ⟨-, hhalf, -⟩ := hf
  rw [sub_toNat_of_le hle.le] at hhalf ⊢
  have hnext : ¬ w.NextCycle (2 ^ (n - 1)) b := by omega
  have hprev : ¬ w.PreviousCycle (2 ^ (n - 1)) b := by omega
  refine ⟨?_, wrap_current_moves hn hmark hprev hle⟩
  rw [wrap_current_value hn hnext hprev, hmark]
  omega

/-- A forward move with a wrap counts a cycle, as long as the extended range has room. -/
theorem wrap_forward_across (h1 : 1 ≤ n) (hn : n < e) (h : w.StandsOn a) (hf : Forward a b)
    (hlt : b.toNat < a.toNat) (hroom : w.maxExtSeqNum.toNat + (b - a).toNat < 2 ^ e) :
    (w.wrap (2 ^ (n - 1)) b).1.toNat = w.maxExtSeqNum.toNat + (b - a).toNat ∧
      (w.wrap (2 ^ (n - 1)) b).2.maxSeqNum = b := by
  obtain ⟨rfl, hmark⟩ := h
  obtain ⟨-, -, hhalf⟩ := hf
  have hless := hhalf hlt
  have htwo := two_pow_pred h1
  have hlast := w.maxSeqNum.isLt
  have hmark' : w.maxExtSeqNum.toNat = w.cycles.toNat * 2 ^ n + w.maxSeqNum.toNat := hmark
  rw [sub_toNat_of_lt hlt] at hroom hless ⊢
  have hnext : w.NextCycle (2 ^ (n - 1)) b := ⟨hlt, by omega⟩
  have hvalue : w.maxExtSeqNum.toNat + (2 ^ n + b.toNat - w.maxSeqNum.toNat) =
      (w.cycles.toNat + 1) * 2 ^ n + b.toNat := by
    rw [hmark', Nat.succ_mul]; omega
  have hfit : w.cycles.toNat + 1 < 2 ^ (e - n) := by
    have hpow : 2 ^ e = 2 ^ (e - n) * 2 ^ n := by rw [← Nat.pow_add, Nat.sub_add_cancel hn.le]
    exact Nat.lt_of_mul_lt_mul_right (a := 2 ^ n) (by omega)
  obtain ⟨-, -, hseq, -⟩ := wrap_next hn hmark hfit hnext
  exact ⟨(wrap_value_toNat hn (wrapCycle_next hnext) hfit).trans hvalue.symm, hseq⟩

/-- A forward move answers the mark plus the distance, and the wrapper then stands on the new value. -/
theorem wrap_forward (h1 : 1 ≤ n) (hn : n < e) (h : w.StandsOn a) (hf : Forward a b)
    (hroom : w.maxExtSeqNum.toNat + 2 ^ (n - 1) < 2 ^ e) :
    (w.wrap (2 ^ (n - 1)) b).1.toNat = w.maxExtSeqNum.toNat + (b - a).toNat ∧
      (w.wrap (2 ^ (n - 1)) b).2.StandsOn b ∧
      (w.wrap (2 ^ (n - 1)) b).2.maxExtSeqNum = (w.wrap (2 ^ (n - 1)) b).1 := by
  have hpos : 0 < (b - a).toNat := hf.1
  have hhalf : (b - a).toNat ≤ 2 ^ (n - 1) := hf.2.1
  have hmark' := wrap_mark hn (2 ^ (n - 1)) w b h.mark
  rcases Nat.lt_trichotomy a.toNat b.toNat with hlt | heq | hlt
  · obtain ⟨hvalue, hregs⟩ := wrap_forward_within hn h hf hlt
    rw [hregs] at hmark' ⊢
    exact ⟨hvalue, ⟨rfl, hmark'⟩, rfl⟩
  · rw [sub_toNat_of_le heq.le] at hpos
    omega
  · obtain ⟨hvalue, hseq⟩ := wrap_forward_across h1 hn h hf hlt (by omega)
    refine ⟨hvalue, ⟨hseq, hmark'⟩, ?_⟩
    rw [wrap_moves (by omega)]

/-- From reset the first raw value is its own extended value, and the wrapper stands on it (R166). -/
theorem wrap_first (h1 : 1 ≤ n) (hn : n < e) (win : Nat) (a : BitVec n) :
    ((⟨0, 0, 0⟩ : SeqWrapper n e).wrap win a).1.toNat = a.toNat ∧
      ((⟨0, 0, 0⟩ : SeqWrapper n e).wrap win a).2.StandsOn a ∧
      ((⟨0, 0, 0⟩ : SeqWrapper n e).wrap win a).2.maxExtSeqNum.toNat = a.toNat := by
  obtain ⟨hvalue, hregs⟩ := wrapFirstCall n e win a h1 hn
  have hmark := wrap_mark hn win (⟨0, 0, 0⟩ : SeqWrapper n e) a (by simp)
  rw [hregs] at hmark ⊢
  split at hmark
  next hpos =>
    rw [if_pos hpos]
    exact ⟨hvalue, ⟨rfl, hmark⟩, by simpa using hmark⟩
  next hzero =>
    obtain rfl : a = 0 := BitVec.eq_of_toNat_eq (by simpa using hzero)
    rw [if_neg hzero]
    exact ⟨hvalue, ⟨rfl, hmark⟩, by simp⟩

/-- Along forward moves the extended values lie above the mark and rise strictly. -/
theorem wrapAll_forward (h1 : 1 ≤ n) (hn : n < e) : ∀ (raws : List (BitVec n)) (w : SeqWrapper n e) (a : BitVec n),
    w.StandsOn a → w.maxExtSeqNum.toNat + raws.length * 2 ^ (n - 1) < 2 ^ e → List.IsChain Forward (a :: raws) →
    (w.wrapAll (2 ^ (n - 1)) raws).Pairwise (fun x y => x.toNat < y.toNat) ∧
      ∀ x ∈ w.wrapAll (2 ^ (n - 1)) raws, w.maxExtSeqNum.toNat < x.toNat
  | [], _, _, _, _, _ => ⟨.nil, by simp [wrapAll]⟩
  | b :: raws, w, a, h, hroom, hchain => by
    obtain ⟨hf, hrest⟩ := List.isChain_cons_cons.1 hchain
    rw [List.length_cons, Nat.succ_mul] at hroom
    obtain ⟨hvalue, hstands, hmark⟩ := wrap_forward h1 hn h hf (by omega)
    obtain ⟨hpos, hhalf, -⟩ := hf
    obtain ⟨hpair, habove⟩ := wrapAll_forward h1 hn raws _ b hstands (by rw [hmark]; omega) hrest
    rw [hmark] at habove
    refine ⟨.cons habove hpair, fun x hx => ?_⟩
    rcases List.mem_cons.1 hx with rfl | hx
    · omega
    · have := habove x hx
      omega

end

/-- Settles O15: the first value is its own extended value, every further one lies above the mark by the distance
moved. -/
theorem wrapMonotonic : Obligations.WrapMonotonic := by
  intro n e raws h1 hn hroom hforward
  match raws with
  | [] => exact .nil
  | a :: raws =>
    have hchain : List.IsChain Forward (a :: raws) := by
      rw [List.isChain_iff_getElem]
      exact fun i hi => hforward i _ _ (List.getElem?_eq_getElem _) (List.getElem?_eq_getElem hi)
    obtain ⟨hvalue, hstands, hmark⟩ := wrap_first h1 hn (2 ^ (n - 1)) a
    have hlt := a.isLt
    have hhalf := Nat.two_pow_pos (n - 1)
    rw [List.length_cons, Nat.succ_mul] at hroom
    obtain ⟨hpair, habove⟩ := wrapAll_forward h1 hn raws _ a hstands (by omega) hchain
    rw [hmark, ← hvalue] at habove
    exact .cons habove hpair

end SeqWrapper

end Sys2Proof.Machine
end

section
/-! PROOFS. The gap and duplicate tracker (10_state.md R45, 47_association_dispatch.md R360 to R363): insertion, the gap
test, what the walk of `Acknowledge` reports, and the effect of `Acknowledge`. -/

namespace Sys2Proof.Machine

/-! ## The gap test and the insertion -/

theorem hasGap_cons_cons (a b : U64) (m : List U64) :
    hasGap (a :: b :: m) = true ↔ b.toNat - a.toNat > 1 ∨ hasGap (b :: m) = true := by
  simp [hasGap]

/-- Settles O16: a gap is one between the first two elements, or one further on. -/
theorem gapIsAnAdjacentJump : Obligations.GapIsAnAdjacentJump := by
  intro m
  induction m with
  | nil => simp [hasGap]
  | cons a m ih =>
    cases m with
    | nil => simp [hasGap]
    | cons b m =>
      rw [hasGap_cons_cons, ih]
      constructor
      · rintro (hgap | ⟨i, x, y, hx, hy, hgap⟩)
        · exact ⟨0, a, b, rfl, rfl, hgap⟩
        · exact ⟨i + 1, x, y, hx, hy, hgap⟩
      · rintro ⟨_ | i, x, y, hx, hy, hgap⟩
        · cases hx
          cases hy
          exact .inl hgap
        · exact .inr ⟨i, x, y, hx, hy, hgap⟩

theorem insertTSN_perm (t : U64) (m : List U64) : (insertTSN t m).Perm (t :: m) := by
  induction m with
  | nil => exact .refl _
  | cons a m ih =>
    unfold insertTSN
    split
    · exact .refl _
    · exact (ih.cons a).trans (.swap t a m)

theorem mem_insertTSN {t x : U64} {m : List U64} : x ∈ insertTSN t m ↔ x = t ∨ x ∈ m := by
  rw [(insertTSN_perm t m).mem_iff, List.mem_cons]

theorem insertTSN_ascending (t : U64) {m : List U64} (h : m.Pairwise fun a b => a.toNat ≤ b.toNat) :
    (insertTSN t m).Pairwise fun a b => a.toNat ≤ b.toNat := by
  induction m with
  | nil => exact List.pairwise_singleton _ _
  | cons a m ih =>
    obtain ⟨ha, hm⟩ := List.pairwise_cons.1 h
    unfold insertTSN
    split
    next hle =>
      refine .cons (fun x hx => ?_) h
      rcases List.mem_cons.1 hx with rfl | hx
      · exact hle
      · exact hle.trans (ha x hx)
    next hlt =>
      refine .cons (fun x hx => ?_) (ih hm)
      rcases mem_insertTSN.1 hx with rfl | hx
      · omega
      · exact ha x hx

/-- Settles O17: the new element stands before the first one that is not smaller. -/
theorem trackerInsertion : Obligations.TrackerInsertion :=
  fun t m h => ⟨insertTSN_ascending t h, insertTSN_perm t m⟩

/-! ## The walk -/

namespace AckWalk

/-- Every gap block the walk has found so far, the open one last. -/
def blocks (k : AckWalk) : List (U64 × U64) := k.gaps ++ k.openBlock.toList

@[simp] theorem finish_l (k : AckWalk) : k.finish.l = k.l := by
  unfold finish
  split <;> rfl

@[simp] theorem finish_dups (k : AckWalk) : k.finish.dups = k.dups := by
  unfold finish
  split <;> rfl

@[simp] theorem finish_gaps (k : AckWalk) : k.finish.gaps = k.blocks := by
  unfold finish
  split <;> simp [blocks, *]

/-- The number the walk has come to: the end of the open block, or the point. -/
def top (k : AckWalk) : U64 :=
  match k.openBlock with
  | none => k.l
  | some b => b.2

theorem mem_blocks_of_openBlock {k : AckWalk} {b : U64 × U64} (h : k.openBlock = some b) : b ∈ k.blocks := by
  simp [blocks, h]

/-- What the walk has found out about the numbers `ps` it has read, `l` being the point it started from. -/
structure Reports (l : U64) (ps : List U64) (k : AckWalk) : Prop where
  /-- Every number read lies up to where the walk has come. -/
  upToTop : ∀ t ∈ ps, t.toNat ≤ k.top.toNat
  /-- Blocks are found only after the first gap. -/
  noneBefore : k.openBlock = none → k.gaps = []
  point : l.toNat ≤ k.l.toNat
  contiguous : ∀ x : Nat, l.toNat < x → x ≤ k.l.toNat → ∃ t ∈ ps, t.toNat = x
  covered : ∀ x : Nat, (∃ b ∈ k.blocks, b.1.toNat ≤ x ∧ x ≤ b.2.toNat) ↔ k.l.toNat < x ∧ ∃ t ∈ ps, t.toNat = x
  above : ∀ b ∈ k.blocks, k.l.toNat + 2 ≤ b.1.toNat ∧ b.1.toNat ≤ b.2.toNat
  apart : k.blocks.Pairwise fun b b' => b.2.toNat + 1 < b'.1.toNat
  counted : ∀ t : U64, k.dups.count t = if t.toNat ≤ l.toNat then ps.count t else ps.count t - 1

theorem reports_start (l : U64) : Reports l [] ⟨l, none, [], []⟩ where
  upToTop := by simp
  noneBefore _ := rfl
  point := Nat.le_refl _
  contiguous := fun x h h' => absurd h (Nat.not_lt.2 h')
  covered := by simp [blocks]
  above := by simp [blocks]
  apart := .nil
  counted := by simp

section
variable {l : U64} {ps : List U64} {k : AckWalk} {t : U64}

/-! What reading one more number `t` does to each of the two facts that speak of the numbers read. -/

theorem count_append_other {x : U64} (h : x ≠ t) : (ps ++ [t]).count x = ps.count x := by
  rw [List.count_append, List.count_singleton, if_neg (by simpa using h.symm), Nat.add_zero]

theorem count_append_self : (ps ++ [t]).count t = ps.count t + 1 := by
  rw [List.count_append, List.count_singleton_self]

/-- A number that is read again is a duplicate, and so is one up to the old point. -/
theorem counted_again {dups : List U64}
    (h : ∀ x : U64, dups.count x = if x.toNat ≤ l.toNat then ps.count x else ps.count x - 1)
    (ht : t.toNat ≤ l.toNat ∨ t ∈ ps) (x : U64) :
    (dups ++ [t]).count x = if x.toNat ≤ l.toNat then (ps ++ [t]).count x else (ps ++ [t]).count x - 1 := by
  by_cases hx : x = t
  · subst hx
    rw [count_append_self, count_append_self, h x]
    split
    next => rfl
    next hl =>
      have hpos : 0 < ps.count x := List.count_pos_iff.2 (ht.resolve_left hl)
      omega
  · rw [count_append_other hx, count_append_other hx, h x]

/-- A number above the old point that is read for the first time is no duplicate. -/
theorem counted_first {dups : List U64}
    (h : ∀ x : U64, dups.count x = if x.toNat ≤ l.toNat then ps.count x else ps.count x - 1)
    (hl : l.toNat < t.toNat) (ht : t ∉ ps) (x : U64) :
    dups.count x = if x.toNat ≤ l.toNat then (ps ++ [t]).count x else (ps ++ [t]).count x - 1 := by
  rw [h x]
  by_cases hx : x = t
  · subst hx
    rw [if_neg hl.not_ge, if_neg hl.not_ge, count_append_self, List.count_eq_zero_of_not_mem ht]
  · rw [count_append_other hx]

theorem exists_mem_append {x : Nat} : (∃ p ∈ ps ++ [t], p.toNat = x) ↔ (∃ p ∈ ps, p.toNat = x) ∨ x = t.toNat := by
  simp only [List.mem_append, List.mem_singleton, or_and_right, exists_or, exists_eq_left, eq_comm (a := x)]

/-- Blocks that cover `t` beside what they covered before. -/
theorem covered_append {bs bs' : List (U64 × U64)} {p : Nat} (hp : p < t.toNat)
    (h : ∀ x : Nat, (∃ b ∈ bs, b.1.toNat ≤ x ∧ x ≤ b.2.toNat) ↔ p < x ∧ ∃ u ∈ ps, u.toNat = x)
    (hbs : ∀ x : Nat, (∃ b ∈ bs', b.1.toNat ≤ x ∧ x ≤ b.2.toNat) ↔
      (∃ b ∈ bs, b.1.toNat ≤ x ∧ x ≤ b.2.toNat) ∨ x = t.toNat) (x : Nat) :
    (∃ b ∈ bs', b.1.toNat ≤ x ∧ x ≤ b.2.toNat) ↔ p < x ∧ ∃ u ∈ ps ++ [t], u.toNat = x := by
  rw [hbs, h, exists_mem_append, and_or_left]
  refine or_congr_right ⟨fun hx => ⟨hx ▸ hp, hx⟩, And.right⟩

/-- Reading a number that was read before adds nothing to cover. -/
theorem covered_again {bs : List (U64 × U64)} {p : Nat} (ht : t.toNat ≤ p ∨ t ∈ ps)
    (h : ∀ x : Nat, (∃ b ∈ bs, b.1.toNat ≤ x ∧ x ≤ b.2.toNat) ↔ p < x ∧ ∃ u ∈ ps, u.toNat = x) (x : Nat) :
    (∃ b ∈ bs, b.1.toNat ≤ x ∧ x ≤ b.2.toNat) ↔ p < x ∧ ∃ u ∈ ps ++ [t], u.toNat = x := by
  rw [h, exists_mem_append]
  refine and_congr_right fun hx => ⟨.inl, fun hu => hu.elim id fun hxt => ?_⟩
  exact ⟨t, ht.resolve_left (by omega), hxt.symm⟩

theorem upTo_append {n : Nat} (h : ∀ p ∈ ps, p.toNat ≤ n) (ht : t.toNat ≤ n) : ∀ p ∈ ps ++ [t], p.toNat ≤ n :=
  List.forall_mem_append.2 ⟨h, by simpa using ht⟩

theorem contiguous_append {n : Nat} (h : ∀ x : Nat, l.toNat < x → x ≤ n → ∃ p ∈ ps, p.toNat = x) (x : Nat)
    (hl : l.toNat < x) (hx : x ≤ n) : ∃ p ∈ ps ++ [t], p.toNat = x :=
  exists_mem_append.2 (.inl (h x hl hx))

end

namespace Reports

section
variable {l : U64} {ps : List U64} {k : AckWalk} {t : U64} (h : Reports l ps k)
include h

theorem not_mem_of_top_lt (ht : k.top.toNat < t.toNat) : t ∉ ps := fun hm => (h.upToTop t hm).not_gt ht

/-- Before the first gap every number between the old point and the new one has been read. -/
theorem mem_of_le_point (ht : t.toNat ≤ k.l.toNat) : t.toNat ≤ l.toNat ∨ t ∈ ps := by
  rcases Nat.lt_or_ge l.toNat t.toNat with hl | hl
  · obtain ⟨u, hu, he⟩ := h.contiguous t.toNat hl ht
    exact .inr (BitVec.eq_of_toNat_eq he ▸ hu)
  · exact .inl hl

/-- A block ends with a number that was read. -/
theorem blockEnd_mem {b : U64 × U64} (hb : b ∈ k.blocks) : b.2 ∈ ps := by
  obtain ⟨-, u, hu, he⟩ := (h.covered b.2.toNat).1 ⟨b, hb, (h.above b hb).2, Nat.le_refl _⟩
  exact BitVec.eq_of_toNat_eq he ▸ hu

/-- The point lies below wherever the walk has come. -/
theorem point_le_top : k.l.toNat ≤ k.top.toNat := by
  unfold top
  split
  next => exact Nat.le_refl _
  next b ho =>
    have := h.above b (mem_blocks_of_openBlock ho)
    omega

/-- The number read is a duplicate: only the list of duplicates grows. -/
theorem again (ht : t.toNat ≤ k.top.toNat) (hm : t.toNat ≤ l.toNat ∨ t ∈ ps) :
    Reports l (ps ++ [t]) { k with dups := k.dups ++ [t] } where
  upToTop := upTo_append h.upToTop ht
  noneBefore := h.noneBefore
  point := h.point
  contiguous := contiguous_append h.contiguous
  covered := covered_again (hm.imp_left fun hl => hl.trans h.point) h.covered
  above := h.above
  apart := h.apart
  counted := counted_again h.counted hm

/-- The number next to the point, before the first gap: the point moves. -/
theorem moves (ho : k.openBlock = none) (ht : t.toNat = k.l.toNat + 1) : Reports l (ps ++ [t]) { k with l := t } := by
  have htop : k.top = k.l := by rw [top, ho]
  have hupTo : ∀ p ∈ ps, p.toNat ≤ k.l.toNat := htop ▸ h.upToTop
  have hblocks : ({ k with l := t } : AckWalk).blocks = [] := by simp [blocks, ho, h.noneBefore ho]
  have hupTo' : ∀ p ∈ ps ++ [t], p.toNat ≤ t.toNat :=
    upTo_append (fun p hp => by have := hupTo p hp; omega) (Nat.le_refl _)
  have hpoint := h.point
  refine ⟨by simpa [top, ho] using hupTo', fun _ => h.noneBefore ho, by dsimp only; omega, fun x hl hx => ?_, fun x => ?_,
    by simp [hblocks], by simp [hblocks],
    counted_first h.counted (by omega) (h.not_mem_of_top_lt (by rw [htop]; omega))⟩
  · rw [exists_mem_append]
    rcases Nat.lt_or_ge k.l.toNat x with hlt | hle
    · exact .inr (by dsimp only at hx; omega)
    · exact .inl (h.contiguous x hl hle)
  · rw [hblocks]
    refine ⟨by simp, fun ⟨hx, u, hu, he⟩ => absurd (hupTo' u hu) (by dsimp only at hx; omega)⟩

/-- A number beyond the next one: a block of its own begins. -/
theorem begins (ht : k.top.toNat + 2 ≤ t.toNat) : Reports l (ps ++ [t]) ⟨k.l, some (t, t), k.blocks, k.dups⟩ := by
  have hpoint := h.point
  have htop := h.point_le_top
  have hblocks : (⟨k.l, some (t, t), k.blocks, k.dups⟩ : AckWalk).blocks = k.blocks ++ [(t, t)] := rfl
  refine ⟨upTo_append (fun p hp => (h.upToTop p hp).trans (by show k.top.toNat ≤ t.toNat; omega)) (Nat.le_refl _), nofun, hpoint,
    contiguous_append h.contiguous, covered_append (by dsimp only; omega) h.covered fun x => ?_, ?_, ?_,
    counted_first h.counted (by omega) (h.not_mem_of_top_lt (by omega))⟩
  · simp only [hblocks, List.mem_append, List.mem_singleton, or_and_right, exists_or, exists_eq_left]
    exact or_congr_right ⟨fun hx => Nat.le_antisymm hx.2 hx.1, fun hx => ⟨hx.ge, hx.le⟩⟩
  · rw [hblocks]
    refine List.forall_mem_append.2 ⟨h.above, ?_⟩
    simp only [List.mem_singleton, forall_eq]
    omega
  · rw [hblocks]
    refine List.pairwise_append.2 ⟨h.apart, List.pairwise_singleton _ _, fun b hb b' hb' => ?_⟩
    obtain rfl := List.mem_singleton.1 hb'
    have hend := h.upToTop _ (h.blockEnd_mem hb)
    dsimp only
    omega

/-- The number next to the open block's end: the block grows. -/
theorem grows {s e : U64} (ho : k.openBlock = some (s, e)) (ht : t.toNat = e.toNat + 1) :
    Reports l (ps ++ [t]) { k with openBlock := some (s, t) } := by
  have htop : k.top = e := by rw [top, ho]
  have hblocks : k.blocks = k.gaps ++ [(s, e)] := by rw [blocks, ho]; rfl
  have hblocks' : ({ k with openBlock := some (s, t) } : AckWalk).blocks = k.gaps ++ [(s, t)] := rfl
  have hpoint := h.point
  obtain ⟨hlow, hle⟩ := h.above _ (mem_blocks_of_openBlock ho)
  have habove := h.above
  have hapart := h.apart
  rw [hblocks] at habove hapart
  obtain ⟨hgaps, -, hopen⟩ := List.pairwise_append.1 hapart
  refine ⟨upTo_append (fun p hp => (h.upToTop p hp).trans (by show k.top.toNat ≤ t.toNat; rw [htop]; omega)) (Nat.le_refl _),
    nofun, hpoint, contiguous_append h.contiguous,
    covered_append (by dsimp only at hlow hle ⊢; omega) h.covered fun x => ?_, ?_, ?_,
    counted_first h.counted (by dsimp only at hlow hle; omega) (h.not_mem_of_top_lt (by rw [htop]; omega))⟩
  · simp only [hblocks, hblocks', List.mem_append, List.mem_singleton, or_and_right, exists_or, exists_eq_left, or_assoc]
    dsimp only at hle
    exact or_congr_right (by omega)
  · rw [hblocks']
    refine List.forall_mem_append.2 ⟨fun b hb => habove b (List.mem_append_left _ hb), ?_⟩
    simp only [List.mem_singleton, forall_eq]
    dsimp only at hlow hle
    omega
  · rw [hblocks']
    refine List.pairwise_append.2 ⟨hgaps, List.pairwise_singleton _ _, fun b hb b' hb' => ?_⟩
    obtain rfl := List.mem_singleton.1 hb'
    exact hopen b hb (s, e) (List.mem_singleton_self _)

/-- One element of the walk: the branches of 47 R362, the list being in order. -/
theorem step (hlast : ∀ p ∈ ps, p.toNat ≤ t.toNat) : Reports l (ps ++ [t]) (k.step t) := by
  unfold AckWalk.step
  split
  next ho =>
    have htop : k.top = k.l := by rw [top, ho]
    have hblocks : k.blocks = k.gaps := by simp [blocks, ho]
    split
    next hle => exact h.again (htop ▸ hle) (h.mem_of_le_point hle)
    next hgt =>
      split
      next hnext => exact h.moves ho hnext
      next hfar =>
        have hbegins := h.begins (t := t) (by rw [htop]; omega)
        rwa [hblocks] at hbegins
  next s e ho =>
    have htop : k.top = e := by rw [top, ho]
    have hmem : e ∈ ps := h.blockEnd_mem (mem_blocks_of_openBlock ho)
    have hge := hlast e hmem
    split
    next heq => exact h.again (by rw [htop, heq]) (.inr (heq ▸ hmem))
    next hne =>
      split
      next hnext => exact h.grows ho hnext
      next hfar =>
        have hne' : t.toNat ≠ e.toNat := fun he => hne (BitVec.eq_of_toNat_eq he)
        have hblocks : k.blocks = k.gaps ++ [(s, e)] := by rw [blocks, ho]; rfl
        have hbegins := h.begins (t := t) (by rw [htop]; omega)
        rwa [hblocks] at hbegins

end

theorem foldl {l : U64} : ∀ (ts ps : List U64) (k : AckWalk), Reports l ps k →
    (ps ++ ts).Pairwise (fun a b => a.toNat ≤ b.toNat) → Reports l (ps ++ ts) (ts.foldl AckWalk.step k)
  | [], ps, k, h, _ => by rwa [List.append_nil]
  | t :: ts, ps, k, h, hasc => by
    have hlast : ∀ p ∈ ps, p.toNat ≤ t.toNat := fun p hp =>
      (List.pairwise_append.1 hasc).2.2 p hp t List.mem_cons_self
    rw [List.append_cons] at hasc ⊢
    exact foldl ts (ps ++ [t]) (k.step t) (h.step hlast) hasc

/-- The number above the point is not among those read: it would be covered by a block, and no block lies so low. -/
theorem ne_point_succ {l : U64} {ps : List U64} {k : AckWalk} (h : Reports l ps k) :
    ∀ t ∈ ps, t.toNat ≠ k.l.toNat + 1 := by
  intro t ht he
  obtain ⟨b, hb, hlow, -⟩ := (h.covered t.toNat).2 ⟨by omega, t, ht, rfl⟩
  have := (h.above b hb).1
  omega

end Reports

end AckWalk

/-- The walk of 47 R362 keeps `Reports` from its first number to its last. -/
theorem ackWalk_reports (l : U64) {ts : List U64} (h : ts.Pairwise fun a b => a.toNat ≤ b.toNat) :
    AckWalk.Reports l ts (ts.foldl AckWalk.step ⟨l, none, [], []⟩) :=
  (AckWalk.reports_start l).foldl ts [] _ h

/-- Settles O18: what the walk has found out when it has read the whole list; closing the open block changes no
block. -/
theorem acknowledgeWalkReports : Obligations.AcknowledgeWalkReports := by
  intro l ts hasc
  have h := ackWalk_reports l hasc
  simp only [ackWalk, AckWalk.finish_l, AckWalk.finish_gaps, AckWalk.finish_dups]
  exact ⟨h.point, h.contiguous, h.ne_point_succ, h.covered, h.above, h.apart, h.counted⟩

/-! ## The limits of a SACK -/

theorem mem_gapOverflows {l s e : U64} {gaps : List (U64 × U64)} :
    LogEntry.gapOffsetOverflow s e l ∈ gapOverflows l gaps ↔ (s, e) ∈ gaps ∧ e.toNat - l.toNat > 65535 := by
  simp only [gapOverflows, List.mem_map, List.mem_filter, decide_eq_true_eq, LogEntry.gapOffsetOverflow.injEq,
    and_true]
  constructor
  · rintro ⟨b, hb, rfl, rfl⟩
    exact hb
  · exact fun h => ⟨(s, e), h, rfl, rfl⟩

/-- At most 16379 entries together, and duplicates only where every gap block has its place (R363). -/
theorem truncateSack_limits (g : List (U16 × U16)) (d : List U32) :
    (truncateSack g d).1.length + (truncateSack g d).2.length = min (g.length + d.length) 16379 ∧
    (truncateSack g d).1 <+: g ∧ (truncateSack g d).2 <+: d ∧
    ((truncateSack g d).1 ≠ g → (truncateSack g d).2 = []) := by
  refine ⟨?_, List.take_prefix _ _, List.take_prefix _ _, fun hcut => ?_⟩
  · simp only [truncateSack, Config.SACK_MAX_ENTRIES, List.length_take]
    omega
  · have hlong : Config.SACK_MAX_ENTRIES < g.length := by
      by_contra hle
      exact hcut (List.take_of_length_le (Nat.not_lt.1 hle))
    rw [truncateSack, Nat.sub_eq_zero_of_le hlong.le, List.take_zero]

theorem buildSack_wf (k : Codes) (w : TsnWrapper) (a : U32) (walk : AckWalk) : (buildSack w a walk).wf k = true := by
  obtain ⟨hlen, -⟩ := truncateSack_limits (walk.gaps.map (gapOffsets walk.l)) (walk.dups.map w.unWrapTSN)
  rw [buildSack, Chunk.wf, hlen]
  exact decide_eq_true (Nat.min_le_right _ _)

/-- Settles O19: the two conversions cut to 16 bits, the filter is the overflow test, and the two cuts add up. -/
theorem sackLimits : Obligations.SackLimits :=
  ⟨fun _ _ _ _ => ⟨BitVec.toNat_ofNat _ _, BitVec.toNat_ofNat _ _⟩, fun _ _ _ _ => mem_gapOverflows,
    truncateSack_limits, buildSack_wf⟩

/-! ## Acknowledge -/

namespace State

theorem endAcknowledge_eq (s : State) : s.endAcknowledge = { s with
    timers := { s.timers with sack := .idle }
    events := s.events ++ (if s.timers.sack = .idle then [] else [.timerCancel .sack])
    pendingAcknowledge := false } := by
  rw [endAcknowledge, cancel_sack]

/-- The state in which `Acknowledge` enqueues its SACK: the point and the multiset updated, the overflows logged. -/
def acknowledged (k : AckWalk) (s : State) : State := { s with
  lastReceivedTSN := k.l
  lastReceivedTSNValid := true
  receivedTSNs := s.receivedTSNs.filter fun x => decide (k.l.toNat < x.toNat)
  log := s.log ++ gapOverflows k.l k.gaps }

theorem reportWalk_eq (k : AckWalk) (s : State) :
    s.reportWalk k = (s.acknowledged k).enqueue (buildSack s.wrapper s.params.localArwnd k) := by
  rw [reportWalk, foldl_takeError_goOn]
  rfl

theorem acknowledge_nothing {s : State} (hv : s.lastReceivedTSNValid = false) (hm : s.receivedTSNs = []) :
    s.acknowledge = s.endAcknowledge := by
  simp [acknowledge, hv, hm]

/-- Where `Acknowledge` starts its walk: at the cumulative point, or at the first number received. -/
def WalksFrom (s : State) (l : U64) (ts : List U64) : Prop :=
  s.lastReceivedTSNValid = true ∧ l = s.lastReceivedTSN ∧ ts = s.receivedTSNs ∨
    s.lastReceivedTSNValid = false ∧ s.receivedTSNs = l :: ts

theorem acknowledge_walk {s : State} {l : U64} {ts : List U64} (h : s.WalksFrom l ts) :
    s.acknowledge = (s.reportWalk (ackWalk l ts)).endAcknowledge := by
  rcases h with ⟨hv, rfl, rfl⟩ | ⟨hv, hm⟩
  · rw [acknowledge, if_pos hv]
  · simp [acknowledge, hv, hm]

end State

theorem TsnWrapper.unWrapTSN_of_tsnBits {w : TsnWrapper} (h : w.tsnBits = 32) (x : U64) :
    w.unWrapTSN x = unWrap 32 x := by
  rw [unWrapTSN, h]
  exact BitVec.setWidth_eq _

/-- Settles O20: the walk's report is enqueued as a SACK, and the end cancels the timer and clears the flag. -/
theorem acknowledgeEffect : Obligations.AcknowledgeEffect := by
  refine fun s => ⟨fun hbits => TsnWrapper.unWrapTSN_of_tsnBits hbits, fun hv hm => ?_, fun l ts h => ⟨_, rfl, ?_⟩⟩
  · rw [State.acknowledge_nothing hv hm, State.endAcknowledge_eq]
  · rw [State.acknowledge_walk h, State.endAcknowledge_eq, State.reportWalk_timers, State.reportWalk_eq]
    rfl

end Sys2Proof.Machine
end

section
/-! PROOFS. ReadPacket (46_association_commands.md R324 to R328): the chunk fill of a queue of well-formed records puts
the images of exactly the chunks that fit behind the header, and the checksum is patched into the whole. -/

namespace Sys2Proof.Machine

/-! ## Puts one after the other -/

theorem Put.refl {wr : Writer} (h : WriterOk wr) : Put [] wr wr := ⟨rfl, rfl, rfl, h, rfl, rfl⟩

theorem Put.trans {xs ys : List Byte} {wr wr' wr'' : Writer} (p : Put xs wr wr') (q : Put ys wr' wr'') :
    Put (xs ++ ys) wr wr'' where
  w := by rw [q.w, p.w, List.length_append, Nat.add_assoc]
  base := q.base.trans p.base
  cap := q.cap.trans p.cap
  ok := q.ok
  size := q.size.trans p.size
  mem := by rw [q.mem, p.mem, p.base, p.w, writeBytes_append, Nat.add_assoc]

theorem Put.room {bs : List Byte} {wr wr' : Writer} (p : Put bs wr wr') : wr'.room = wr.room - bs.length := by
  rw [Writer.room, Writer.room, p.cap, p.w, Nat.sub_sub]

/-- What was put fitted into the room there was. -/
theorem Put.length_le_room {bs : List Byte} {wr wr' : Writer} (p : Put bs wr wr') : bs.length ≤ wr.room := by
  have hcur : wr'.w ≤ wr'.cap := p.ok.2.2
  rw [p.w, p.cap] at hcur
  rw [Writer.room]
  omega

/-! ## The chunks that fit -/

section
variable (k : Codes)

theorem fitting_stop {room count : Nat} {c : Chunk} {q : List Chunk}
    (h : (Chunk.alone c = true ∧ 0 < count) ∨ room < c.size k) : fitting k room count (c :: q) = [] := by
  rw [fitting]
  rcases h with h | h
  · rw [if_pos h]
  · rw [if_pos h, ite_self]

theorem fitting_alone {room count : Nat} {c : Chunk} {q : List Chunk} (ha : Chunk.alone c = true) (h0 : count = 0)
    (hr : c.size k ≤ room) : fitting k room count (c :: q) = [c] := by
  rw [fitting, if_neg (by omega), if_neg (Nat.not_lt.2 hr), if_pos ha]

theorem fitting_more {room count : Nat} {c : Chunk} {q : List Chunk} (ha : Chunk.alone c = false)
    (hr : c.size k ≤ room) :
    fitting k room count (c :: q) = c :: fitting k (room - c.size k) (count + 1) q := by
  rw [fitting, if_neg (by simp [ha]), if_neg (Nat.not_lt.2 hr), if_neg (by simp [ha])]

/-- The chunks that fit are the first ones of the queue (R326). -/
theorem fitting_append_drop : ∀ (q : List Chunk) (room count : Nat),
    fitting k room count q ++ q.drop (fitting k room count q).length = q
  | [], _, _ => rfl
  | c :: q, room, count => by
    by_cases hstop : (Chunk.alone c = true ∧ 0 < count) ∨ room < c.size k
    · rw [fitting_stop k hstop]
      rfl
    · obtain ⟨hcount, hroom⟩ := not_or.1 hstop
      rw [Nat.not_lt] at hroom
      cases ha : Chunk.alone c with
      | true =>
        rw [fitting_alone k ha (by simpa [ha] using hcount) hroom]
        rfl
      | false =>
        rw [fitting_more k ha hroom, List.length_cons, List.drop_succ_cons, List.cons_append, fitting_append_drop q]

/-- A head chunk with room for it is taken. -/
theorem fitting_ne_nil {room : Nat} {c : Chunk} {q : List Chunk} (hr : c.size k ≤ room) :
    fitting k room 0 (c :: q) ≠ [] := by
  cases ha : Chunk.alone c with
  | true => simp [fitting_alone k ha rfl hr]
  | false => simp [fitting_more k ha hr]

/-- One turn of the chunk fill: a well-formed record with room is put at the cursor. -/
theorem fillPacket_takes {c : Chunk} {q : List Chunk} {count : Nat} {wr : Writer} (h : WriterOk wr)
    (hw : c.wf k = true) (ha : Chunk.alone c = true → count = 0) (hr : c.size k ≤ wr.room) :
    ∃ wr', Put (c.image k) wr wr' ∧ fillPacket k (c :: q) count wr =
      if Chunk.alone c then .ok (q, wr') else fillPacket k q (count + 1) wr' := by
  obtain ⟨wr', hser, hput⟩ := serialize_ok h hw hr
  have hcur : ({ wr' with w := wr.w + c.size k } : Writer) = wr' := by rw [← image_length k c, ← hput.w]
  refine ⟨wr', hput, ?_⟩
  have hcount : ¬ (Chunk.alone c && decide (0 < count)) = true := by
    simp only [Bool.and_eq_true, decide_eq_true_eq, not_and]
    exact fun hc => by rw [ha hc]; exact Nat.lt_irrefl 0
  rw [fillPacket, if_neg hcount, if_neg (Nat.not_lt.2 hr), hser]
  simp only [hcur]

/-- The chunk fill of a queue of well-formed records takes exactly the chunks that fit, and puts their images one after
the other at the cursor (R326). -/
theorem fillPacket_fitting : ∀ (q : List Chunk) (count : Nat) (wr : Writer), WriterOk wr →
    (∀ c ∈ q, c.wf k = true) → ∃ wr',
      fillPacket k q count wr = .ok (q.drop (fitting k wr.room count q).length, wr') ∧
      Put ((fitting k wr.room count q).flatMap (Chunk.image k)) wr wr'
  | [], _, wr, h, _ => ⟨wr, rfl, .refl h⟩
  | c :: q, count, wr, h, hq => by
    obtain ⟨hc, hq⟩ := List.forall_mem_cons.1 hq
    by_cases hstop : (Chunk.alone c = true ∧ 0 < count) ∨ wr.room < c.size k
    · rw [fitting_stop k hstop]
      refine ⟨wr, ?_, .refl h⟩
      rw [fillPacket]
      rcases hstop with ⟨ha, hcount⟩ | hroom
      · rw [if_pos (by simp [ha, hcount])]
        rfl
      · rw [if_pos hroom, ite_self]
        rfl
    · obtain ⟨hcount, hroom⟩ := not_or.1 hstop
      rw [Nat.not_lt] at hroom
      obtain ⟨w1, hput, hfill⟩ := fillPacket_takes k (q := q) (count := count) h hc (fun ha => by simpa [ha] using hcount) hroom
      rw [hfill]
      cases ha : Chunk.alone c with
      | true =>
        rw [fitting_alone k ha (by simpa [ha] using hcount) hroom]
        exact ⟨w1, rfl, by simpa using hput⟩
      | false =>
        rw [fitting_more k ha hroom]
        obtain ⟨w2, hrest, hputs⟩ := fillPacket_fitting q (count + 1) w1 hput.ok hq
        rw [hput.room, image_length] at hrest hputs
        exact ⟨w2, by simpa using hrest, by simpa using hput.trans hputs⟩

end

/-! ## The whole packet -/

/-- Patching the checksum changes no byte from offset 12 on. -/
theorem patchChecksum_frame {wr wr' : Writer} (h : WriterOk wr) (hp : patchChecksum wr = some wr') :
    wr'.space.size = wr.space.size ∧ ∀ x, wr.base + 12 ≤ x → wr'.space.byteAt x = wr.space.byteAt x := by
  simp only [patchChecksum, Option.bind_eq_bind, Option.bind_eq_some_iff] at hp
  obtain ⟨bytes, -, hpatch⟩ := hp
  by_cases h12 : 8 + 4 ≤ wr.w
  · obtain ⟨sp, hwrite, hsome⟩ := patch4le_some h h12 (crc32c bytes)
    obtain rfl : { wr with space := sp } = wr' := Option.some.inj (hsome.symm.trans hpatch)
    obtain ⟨hin, -⟩ := Space.writeBytes_spec h.1 hwrite
    obtain ⟨sp', hwrite', -, hsize, -, hframe⟩ := Space.writeBytes_effect h.1 hin
    obtain rfl : sp' = sp := Option.some.inj (hwrite'.symm.trans hwrite)
    exact ⟨hsize, fun x hx => hframe x (.inr (by rw [le4_length]; omega))⟩
  · rw [Writer.patch4le, if_neg h12] at hpatch
    cases hpatch

/-- The packet built from a queue of well-formed records: the header's fields, the checksum, the images of the chunks
that fit; from its end on the buffer is the host's own. -/
theorem buildPacket_fitting {s : State} {sp : Space} (hw : sp.wf = true) (hs : 12 ≤ sp.size)
    (hq : ∀ c ∈ s.queue, c.wf s.params.codes = true) {out : List Chunk} {fields body : List Byte}
    (hout : out = fitting s.params.codes (sp.size - 12) 0 s.queue) (hfields : fields = headerFields (outgoingHeader s))
    (hbody : body = out.flatMap (Chunk.image s.params.codes)) :
    ∃ wr, buildPacket s sp = .ok (s.queue.drop out.length, wr) ∧ wr.w = 12 + body.length ∧ wr.space.size = sp.size ∧
      wr.space.readBytes 0 (12 + body.length) =
        some (fields ++ (le4 (crc32c (fields ++ (zeros 4 ++ body))) ++ body)) ∧
      ∀ a, 12 + body.length ≤ a → wr.space.byteAt a = sp.byteAt a := by
  have hstart := writerOk_ofSpace hw
  obtain ⟨w1, hser, hhead⟩ := serializeHeader_ok (outgoingHeader s) hw hs
  have hroom : w1.room = sp.size - 12 := by rw [hhead.room]; rfl
  obtain ⟨w2, hfill, hchunks⟩ := fillPacket_fitting s.params.codes s.queue 0 w1 hhead.ok hq
  rw [hroom, ← hout] at hfill hchunks
  rw [← hbody] at hchunks
  have hput := hhead.trans hchunks
  have himage : headerImage (outgoingHeader s) ++ body = fields ++ (zeros 4 ++ body) := by
    rw [headerImage_eq, hfields, List.append_assoc, ← le4_zero]
  have hw2 : w2.w = 12 + body.length := by rw [hchunks.w, hhead.w]; rfl
  obtain ⟨hread, hframe⟩ := hput.read hstart hput.length_le_room
  rw [himage] at hread hframe
  have hlen : (fields ++ (zeros 4 ++ body)).length = 12 + body.length := by
    rw [← himage, List.length_append]; rfl
  rw [hlen] at hread hframe
  have hbase : w2.base = 0 := hput.base
  obtain ⟨w3, hpatch, hw3, hread3⟩ := patchChecksum_ok hput.ok hbase (hfields ▸ headerFields_length _)
    (by rw [hw2]; exact hread)
  obtain ⟨hsize3, hframe3⟩ := patchChecksum_frame hput.ok hpatch
  rw [hw2] at hw3 hread3
  refine ⟨w3, ?_, hw3, hsize3.trans hput.size, hread3, fun a ha => ?_⟩
  · simp only [buildPacket, hser, hfill, hpatch]
  · rw [hframe3 a (by rw [hbase]; omega), hframe a (.inr (by simpa [Writer.ofSpace] using ha))]
    rfl

/-! ## The command -/

section
variable {s : State} (hi : s.ingress = none) (tx : List Byte)
include hi

theorem exec_readPacket_nothing (hr : s.packetReady tx.length = false) :
    exec (.readPacket tx) s = .next ({ s with tx := Space.ofBytes tx, wp := 0 }.answer (.length 0)) := by
  rw [exec, execReadPacket, betweenOperations_none hi]
  exact if_neg (by simp [hr])

theorem exec_readPacket_built (hr : s.packetReady tx.length = true) {rest : List Chunk} {wr : Writer}
    (hb : buildPacket s (Space.ofBytes tx) = .ok (rest, wr)) :
    exec (.readPacket tx) s = .next ({ s with
      tx := wr.space
      wp := wr.w
      queue := rest
      pendingData := if rest = [] then false else s.pendingData }.answer (.length wr.w)) := by
  rw [exec, execReadPacket, betweenOperations_none hi]
  simp only [Space.ofBytes_size, hr, if_true, hb]

end

/-- Whether a packet comes out, by the head of the queue (R324). -/
theorem packetReady_iff {s : State} {capacity : Nat} : s.packetReady capacity = true ↔
    s.terminated = false ∧ ∃ c q, s.queue = c :: q ∧ 12 + c.size s.params.codes ≤ capacity := by
  rw [State.packetReady]
  cases s.queue with
  | nil => simp
  | cons c q => simp [Config.HEADER_SIZE]

/-- Settles O27: the command hands over the packet `buildPacket` built, which takes the chunks that fit. -/
theorem readPacketEgress : Obligations.ReadPacketEgress := by
  intro s tx c q hi ht hq hqueue hroom
  obtain ⟨wr, hbuild, hwp, hsize, hread, hframe⟩ :=
    buildPacket_fitting (Space.ofBytes_wf tx) (by rw [Space.ofBytes_size]; omega) hq rfl rfl rfl
  rw [Space.ofBytes_size] at hbuild hwp hsize hread hframe
  have hready : s.packetReady tx.length = true := packetReady_iff.2 ⟨ht, c, q, hqueue, hroom⟩
  refine ⟨wr.space, _, _, _, rfl, hqueue ▸ fitting_ne_nil _ (by omega), rfl, rfl, (fitting_append_drop _ _ _ _).symm,
    ?_, hsize, hread, hframe⟩
  rw [exec_readPacket_built hi tx hready hbuild, hwp]
  rfl

/-- Settles O26: each of the three cases leaves no packet ready. -/
theorem readPacketNothing : Obligations.ReadPacketNothing := by
  intro s tx hi hno
  rw [exec_readPacket_nothing hi tx]
  · rfl
  · rw [Bool.eq_false_iff, Ne, packetReady_iff]
    rintro ⟨ht, c, q, hqueue, hroom⟩
    rcases hno with ht' | hnil | ⟨c', q', hqueue', hfull⟩
    · rw [ht] at ht'
      cases ht'
    · rw [hnil] at hqueue
      cases hqueue
    · rw [hqueue] at hqueue'
      cases hqueue'
      omega

end Sys2Proof.Machine
end

section
/-! PROOFS. One step (46_association_commands.md R310, R322, 42_chunks_handshake.md R183): what is fetched, which
instruction it decodes to, and what executing a chunk or a parameter instruction does, by its type and operands alone. -/

namespace Sys2Proof

/-! ## The kinds whose body goes on as parameters -/

/-- INIT, INIT-ACK, HEARTBEAT and HEARTBEAT-ACK (42 R183, 43 R237). -/
def ChunkKind.isList : ChunkKind → Bool
  | .init | .initAck | .heartbeat | .heartbeatAck => true
  | .data | .sack | .abort | .shutdown | .shutdownAck | .error | .cookieEcho | .cookieAck | .shutdownComplete
  | .reConfig | .padding | .forwardTSN => false

/-- The start of a body that goes on as parameters; the other kinds have none. -/
def openBody (flag : Byte) (b : List Byte) : ChunkKind → Option (Building × List Byte)
  | .init => openInit flag b
  | .initAck => openInitAck flag b
  | .heartbeat => openHeartbeat flag b
  | .heartbeatAck => openHeartbeatAck flag b
  | .data | .sack | .abort | .shutdown | .shutdownAck | .error | .cookieEcho | .cookieAck | .shutdownComplete
  | .reConfig | .padding | .forwardTSN => none

theorem openBody_typeCode {k : Codes} {x : ChunkKind} {f : Byte} {body : List Byte} {b : Building} {tail : List Byte}
    (h : openBody f body x = some (b, tail)) : b.typeCode k = k.chunkType x := by
  cases x <;> simp only [openBody, reduceCtorEq] at h
  case init => exact Machine.openInit_kind h
  case initAck => exact Machine.openInitAck_kind h
  case heartbeat => exact Machine.openHeartbeat_kind h
  case heartbeatAck => exact Machine.openHeartbeatAck_kind h

theorem parseBody_list {k : Codes} {t : Byte} {x : ChunkKind} (hx : k.chunkKindOf t = some x) (hl : x.isList = true)
    (f : Byte) (b : List Byte) : parseBody k t f b = parseParamList k (openBody f b x) := by
  cases x <;> simp only [ChunkKind.isList, Bool.false_eq_true] at hl
  all_goals rw [parseBody, hx]; rfl

/-- A usable length and the encoding's check are one test. -/
theorem RawChunk.lengthUsable_eq (c : RawChunk) : c.lengthUsable = c.wellFormed := rfl

theorem RawParam.lengthUsable_eq (p : RawParam) : p.lengthUsable = p.wellFormed := rfl

theorem commandCode_of_chunkOperands {k : Codes} {i : Instr} {o : Byte × RawChunk} (h : i.chunkOperands k = some o) :
    i.commandCode = none := by
  cases i <;> simp only [Instr.chunkOperands, reduceCtorEq] at h <;> rfl

theorem commandCode_of_paramOperands {k : Codes} {i : Instr} {o : U16 × RawParam} (h : i.paramOperands k = some o) :
    i.commandCode = none := by
  cases i <;> simp only [Instr.paramOperands, reduceCtorEq] at h <;> rfl

namespace Machine

/-! ## Executing what the type selects -/

section
variable {s : State} {t : Byte} {c : RawChunk}

/-- A type of no list kind runs the body parser's answer. -/
theorem exec_selectChunk_whole (h : ∀ x, s.params.codes.chunkKindOf t = some x → x.isList = false) :
    exec (selectChunk s.params.codes t c) s = runChunk t c (parseBody s.params.codes t c.flag c.body) s := by
  cases hx : s.params.codes.chunkKindOf t with
  | none => simp only [selectChunk, parseBody, hx]; rfl
  | some x =>
    have hl := h x hx
    have ht := chunkType_of_kindOf hx
    simp only [selectChunk, parseBody, hx]
    cases x <;> simp only [ChunkKind.isList, Bool.true_eq_false] at hl
    all_goals rw [← ht]; rfl

/-- A type of a list kind opens its parameter list. -/
theorem exec_selectChunk_list {x : ChunkKind} (hx : s.params.codes.chunkKindOf t = some x) (hl : x.isList = true) :
    exec (selectChunk s.params.codes t c) s = openChunk t c (openBody c.flag c.body x) s := by
  rw [selectChunk_kind hx, ← chunkType_of_kindOf hx]
  cases x <;> simp only [ChunkKind.isList, Bool.false_eq_true] at hl
  all_goals rfl

/-- Every chunk instruction is one of the two. -/
theorem exec_selectChunk_cases (s : State) (t : Byte) (c : RawChunk) :
    exec (selectChunk s.params.codes t c) s = runChunk t c (parseBody s.params.codes t c.flag c.body) s ∨
    ∃ x, s.params.codes.chunkKindOf t = some x ∧ x.isList = true ∧
      exec (selectChunk s.params.codes t c) s = openChunk t c (openBody c.flag c.body x) s := by
  by_cases h : ∃ x, s.params.codes.chunkKindOf t = some x ∧ x.isList = true
  · obtain ⟨x, hx, hl⟩ := h
    exact .inr ⟨x, hx, hl, exec_selectChunk_list hx hl⟩
  · exact .inl (exec_selectChunk_whole fun x hx => Bool.eq_false_iff.2 fun hl => h ⟨x, hx, hl⟩)

/-- The storing of a parameter instruction is `StoreParam` of its type (42 R184). -/
theorem exec_selectParam (s : State) (t : U16) (p : RawParam) :
    exec (selectParam s.params.codes t p) s = runParam p (storeParam s.params.codes t p.value) s := by
  have hstore : storeParam s.params.codes t p.value = fun b => storeParam s.params.codes t p.value b := rfl
  rw [hstore]
  simp only [storeParam]
  cases hx : s.params.codes.paramKindOf t with
  | none => simp only [selectParam, hx]; rfl
  | some x => rw [selectParam_kind hx]; cases x <;> rfl

variable {rx : Space} {pc : Nat} (hi : s.ingress = some ⟨rx, pc, none⟩)
include hi

/-- An unusable length drops the rest of the packet, whatever the type (44 R251). -/
theorem exec_selectChunk_unusable (t : Byte) (hc : c.lengthUsable = false) :
    exec (selectChunk s.params.codes t c) s = .next { s with
      log := s.log ++ [.chunkLengthInvalid pc t c.length], ingress := some ⟨rx, rx.size, none⟩ } := by
  rcases exec_selectChunk_cases s t c with h | ⟨x, -, -, h⟩ <;> rw [h]
  · exact runChunk_unusable hi t hc _
  · exact openChunk_unusable hi t hc _

/-- At a chunk every chunk instruction has a next state. -/
theorem exec_selectChunk_next (t : Byte) (c : RawChunk) : ∃ s', exec (selectChunk s.params.codes t c) s = .next s' := by
  cases hc : c.lengthUsable with
  | false => exact ⟨_, exec_selectChunk_unusable hi t hc⟩
  | true =>
    rcases exec_selectChunk_cases s t c with h | ⟨x, -, -, h⟩ <;> rw [h]
    · cases parseBody s.params.codes t c.flag c.body with
      | none => exact ⟨_, runChunk_malformed hi t hc⟩
      | some r => exact ⟨_, runChunk_record hi t hc r⟩
    · match openBody c.flag c.body x with
      | none => exact ⟨_, openChunk_malformed hi t hc⟩
      | some (b, tail) => exact ⟨_, openChunk_start hi t hc b tail⟩

end

section
variable {s : State} {rx : Space} {pc : Nat} {q : ParamList} (hi : s.ingress = some ⟨rx, pc, some q⟩)
include hi

/-- Inside an open list a parameter that lies in it has a next state. -/
theorem runParam_next {p : RawParam} (store : Building → Option Building) (hp : 4 + p.value.length ≤ q.reader.left) :
    ∃ s', runParam p store s = .next s' := by
  cases hu : p.lengthUsable with
  | false => exact ⟨_, runParam_unusable hi hu store⟩
  | true =>
    cases hs : store q.building with
    | none => exact ⟨_, runParam_refused hi hs⟩
    | some b => exact ⟨_, runParam_stored hi hu hs hp⟩

end

/-- The value bytes of a decoded parameter lie in the list it was decoded from. -/
theorem rawParam_value_length_le (l : U16) (tail : List Byte) : (rawParam l tail).value.length ≤ tail.length := by
  unfold rawParam
  split
  · exact List.length_take_le' _ _
  · exact Nat.zero_le _

/-! ## What is fetched -/

theorem decode_chunk_ok {k : Codes} {bytes : List Byte} {i : Instr} (h : decode k (.chunk bytes) = .ok i) :
    ∃ t c, i = selectChunk k t c := by
  match bytes with
  | t :: f :: l1 :: l0 :: tail =>
    cases h
    exact ⟨_, _, rfl⟩
  | [] | [_] | [_, _] | [_, _, _] => cases h

theorem decode_param_ok {k : Codes} {bytes : List Byte} {i : Instr} (h : decode k (.param bytes) = .ok i) :
    4 ≤ bytes.length ∧ ∃ t p, i = selectParam k t p := by
  match bytes with
  | t1 :: t0 :: l1 :: l0 :: tail =>
    cases h
    exact ⟨by simp, _, _, rfl⟩
  | [] | [_] | [_, _] | [_, _, _] => cases h

/-- With at least 4 bytes from `pc` on the chunk header stands there. -/
theorem readBytes_chunkHeader {rx : Space} {pc : Nat} (h : pc + 4 ≤ rx.size) :
    rx.mem.readBytes pc (rx.size - pc) = rx.byteAt pc :: rx.byteAt (pc + 1) :: rx.byteAt (pc + 2) ::
      rx.byteAt (pc + 3) :: rx.mem.readBytes (pc + 4) (rx.size - pc - 4) := by
  obtain ⟨n, hn⟩ := Nat.exists_eq_add_of_le' (show 4 ≤ rx.size - pc by omega)
  rw [hn, Nat.add_sub_cancel]
  rfl

section
variable {s : State}

theorem step_of_fetch {s' : State} {c : Code} (h : fetch s = .code c s') :
    (∀ i, decode s.params.codes c = .ok i → step s = exec i s') ∧
    (∀ e, decode s.params.codes c = .error e → step s = .refused (.undecodable e)) := by
  refine ⟨fun i hd => ?_, fun e hd => ?_⟩ <;> simp only [step, h, hd]

theorem fetch_command (hi : s.ingress = none) {c : PortCommand} {rest : List PortCommand} (hp : s.port = c :: rest) :
    fetch s = .code (.command c) { s with port := rest } := by
  simp only [fetch, hi, hp]

theorem step_idle (hi : s.ingress = none) (hp : s.port = []) : step s = .next s := by
  simp only [step, fetch, hi, hp]

theorem fetch_chunk {rx : Space} {pc : Nat} (hi : s.ingress = some ⟨rx, pc, none⟩) (h : pc + 4 ≤ rx.size) :
    fetch s = .code (.chunk (rx.mem.readBytes pc (rx.size - pc))) s := by
  simp only [fetch, hi]
  rw [if_neg (by omega), Space.readBytes_some (by omega)]

theorem fetch_param {rx : Space} {pc : Nat} {q : ParamList} (hi : s.ingress = some ⟨rx, pc, some q⟩)
    (h : 4 ≤ q.reader.rest.length) : fetch s = .code (.param q.reader.rest) s := by
  have hleft : q.reader.left = q.reader.rest.length := rfl
  simp only [fetch, hi]
  rw [if_neg (by omega), if_neg (by omega)]

/-- A parameter list with nothing left is closed by the step. -/
theorem step_paramsDone {rx : Space} {pc : Nat} {q : ParamList} (hi : s.ingress = some ⟨rx, pc, some q⟩)
    (h : q.reader.left = 0) : step s = .next (closeParams pc q s) := by
  simp only [step, fetch, hi, h, if_true]

/-- One to three stray bytes fail the chunk (30 R103). -/
theorem step_stray {rx : Space} {pc : Nat} {q : ParamList} (hi : s.ingress = some ⟨rx, pc, some q⟩)
    (h1 : 1 ≤ q.reader.rest.length) (h3 : q.reader.rest.length ≤ 3) :
    step s = .next (s.chunkFailed rx pc q.next (q.building.typeCode s.params.codes)) := by
  have hleft : q.reader.left = q.reader.rest.length := rfl
  have hfetch : fetch s = .stray pc q := by
    simp only [fetch, hi]
    rw [if_neg (by omega), if_pos (by omega)]
  rw [step, hfetch]
  simp [strayBytes, State.takeError, State.raise, State.resumeAt, State.chunkFailed, hi]

theorem step_chunk {rx : Space} {pc : Nat} (hi : s.ingress = some ⟨rx, pc, none⟩) (h : pc + 4 ≤ rx.size) :
    step s = exec (selectChunk s.params.codes (rx.byteAt pc)
      (rawChunk (rx.byteAt (pc + 1)) (ofBe2 (rx.byteAt (pc + 2)) (rx.byteAt (pc + 3)))
        (rx.mem.readBytes (pc + 4) (rx.size - pc - 4)))) s :=
  (step_of_fetch (fetch_chunk hi h)).1 _ (by rw [readBytes_chunkHeader h]; rfl)

theorem step_param {rx : Space} {pc : Nat} {q : ParamList} {t1 t0 l1 l0 : Byte} {tail : List Byte}
    (hi : s.ingress = some ⟨rx, pc, some q⟩) (hr : q.reader.rest = t1 :: t0 :: l1 :: l0 :: tail) :
    step s = runParam (rawParam (ofBe2 l1 l0) tail)
      (storeParam s.params.codes (ofBe2 t1 t0) (rawParam (ofBe2 l1 l0) tail).value) s := by
  rw [← exec_selectParam]
  exact (step_of_fetch (fetch_param hi (by simp [hr]))).1 _ (by rw [hr]; rfl)

end

/-- Settles O46: the step is the fetch, then the decoder's answer. -/
theorem stepRunsDecoded : Obligations.StepRunsDecoded :=
  ⟨fun _ _ _ hi hp => step_of_fetch (fetch_command hi hp), fun _ => step_idle,
    fun _ _ _ i hi h => (step_of_fetch (fetch_chunk hi h)).1 i,
    fun _ _ _ _ i hi h => (step_of_fetch (fetch_param hi h)).1 i⟩

/-- A packet of 12 header bytes and a chunk's bytes holds these bytes from offset 12 on. -/
theorem readBytes_ofBytes_append (xs ys : List Byte) :
    (Space.ofBytes (xs ++ ys)).mem.readBytes xs.length ((Space.ofBytes (xs ++ ys)).size - xs.length) = ys := by
  have hlen : (xs ++ ys).length - xs.length = ys.length := by rw [List.length_append, Nat.add_sub_cancel_left]
  rw [Space.ofBytes_size, hlen]
  exact (Memory.readBytes_ofBytes _ _ _ (by simp)).trans (by simp)

/-- Settles O47: the word stands where the fetch of its kind looks. -/
theorem placedWordRuns : Obligations.PlacedWordRuns := by
  intro s nbits w i hword
  have hdecode : decode Codes.default (tableCode nbits w) = .ok i := by
    rw [decodeTableWord] at hword
    cases hd : decode Codes.default (tableCode nbits w) with
    | error e => rw [hd] at hword; cases hword
    | ok j => rw [hd] at hword; cases hword; rfl
  rw [State.withFetchWord]
  cases hcode : tableCode nbits w with
  | command c =>
    rw [hcode] at hdecode
    have hcommand : i.commandCode = some c.code := decodeCommand_code hdecode
    refine ⟨fun _ => ?_, fun hn => absurd hn (by simp [hcommand])⟩
    exact (step_of_fetch (fetch_command rfl rfl)).1 i hdecode
  | chunk bytes =>
    rw [hcode] at hdecode
    obtain ⟨t, c, hsel⟩ := decode_chunk_ok hdecode
    have hcommand : i.commandCode = none :=
      commandCode_of_chunkOperands (hsel ▸ selectChunk_operands Codes.default t c)
    refine ⟨fun hn => absurd hcommand hn, fun _ => ?_⟩
    have hbytes := readBytes_ofBytes_append (zeros 12) bytes
    rw [zeros_length] at hbytes
    have hlong : 12 + 4 ≤ (Space.ofBytes (zeros 12 ++ bytes)).size := by
      match bytes with
      | t :: f :: l1 :: l0 :: tail => simp; omega
      | [] | [_] | [_, _] | [_, _, _] => cases hdecode
    exact (step_of_fetch (fetch_chunk rfl hlong)).1 i (by rw [hbytes]; exact hdecode)
  | param bytes =>
    rw [hcode] at hdecode
    obtain ⟨hlong, t, p, hsel⟩ := decode_param_ok hdecode
    have hcommand : i.commandCode = none :=
      commandCode_of_paramOperands (hsel ▸ selectParam_operands Codes.default t p)
    exact ⟨fun hn => absurd hcommand hn, fun _ => (step_of_fetch (fetch_param rfl hlong)).1 i hdecode⟩

/-! ## No step faults -/

theorem exists_next_of_betweenOperations {s : State} (hi : s.ingress = none) {k : Outcome} (h : ∃ s', k = .next s') :
    ∃ s', betweenOperations s k = .next s' := by
  rwa [betweenOperations_none hi]

/-- Between operations every command has a next state: no packet is built beyond its buffer. -/
theorem exec_command_next {s : State} (hi : s.ingress = none) {i : Instr} {code : Byte}
    (hc : i.commandCode = some code) : ∃ s', exec i s = .next s' := by
  cases i <;> simp only [Instr.commandCode, reduceCtorEq] at hc
  case setLocalPort | setRemotePort =>
    refine exists_next_of_betweenOperations hi ?_
    split <;> exact ⟨_, rfl⟩
  case associate | abort =>
    refine exists_next_of_betweenOperations hi ?_
    split <;> exact ⟨_, rfl⟩
  case enqueue | getState | getPendingData => exact exists_next_of_betweenOperations hi ⟨_, rfl⟩
  case writePacket rx =>
    refine exists_next_of_betweenOperations hi ?_
    split
    · exact ⟨_, rfl⟩
    · split <;> exact ⟨_, rfl⟩
  case readPacket tx =>
    cases hr : s.packetReady tx.length with
    | false => exact ⟨_, exec_readPacket_nothing hi tx hr⟩
    | true =>
      obtain ⟨rest, wr, hbuild, -⟩ := buildPacket_ok s (Space.ofBytes_wf tx) (packetReady_room hr)
      exact ⟨_, exec_readPacket_built hi tx hr hbuild⟩
  case timerFireInit | timerFireCookie | timerFireSack => exact ⟨_, fireTimer_cases hi _ _ _⟩

/-- Settles O49: a command has a next state unless it does not decode; a chunk is fetched only at its place, and a
parameter's value lies in the list it was read from. -/
theorem stepNeverFaults : Obligations.StepNeverFaults := by
  intro s
  match hi : s.ingress with
  | none =>
    match hp : s.port with
    | [] => exact .inl ⟨s, step_idle hi hp⟩
    | c :: rest =>
      obtain ⟨hok, herror⟩ := step_of_fetch (fetch_command hi hp)
      cases hd : decodeCommand c with
      | ok i =>
        rw [hok i hd]
        exact .inl (exec_command_next (s := { s with port := rest }) hi (decodeCommand_code hd))
      | error e =>
        obtain ⟨rfl, hno⟩ := decodeCommand_error hd
        exact .inr ⟨c, rest, rfl, rfl, hno, herror _ hd⟩
  | some ⟨rx, pc, none⟩ =>
    left
    rcases Nat.lt_or_ge rx.size (pc + 4) with hend | hmore
    · exact ⟨_, step_endOfPacket hi hend⟩
    · rw [step_chunk hi hmore]
      exact exec_selectChunk_next hi _ _
  | some ⟨rx, pc, some q⟩ =>
    left
    match hr : q.reader.rest with
    | [] => exact ⟨_, step_paramsDone hi (by rw [Reader.left, hr]; rfl)⟩
    | [_] | [_, _] | [_, _, _] => exact ⟨_, step_stray hi (by simp [hr]) (by simp [hr])⟩
    | t1 :: t0 :: l1 :: l0 :: tail =>
      rw [step_param hi hr]
      have hvalue := rawParam_value_length_le (ofBe2 l1 l0) tail
      exact runParam_next hi _ (by rw [Reader.left, hr]; simp only [List.length_cons]; omega)

end Machine

end Sys2Proof
end

section
/-! PROOFS. The chunk and parameter instructions (42_chunks_handshake.md R181 to R184, 43_chunks_data_sack.md R237,
44_chunks_other.md R250 to R253): bodies parsed whole, bodies that go on as parameters, and the storing of a parameter. -/

namespace Sys2Proof

/-! ## Where a parameter value goes -/

section
variable {k : Codes} (hk : k.Distinct)
include hk

theorem storeParam_paramType (x : ParamKind) (v : List Byte) (b : Building) :
    storeParam k (k.paramType x) v b =
      match x with
      | .heartbeatInfo => storeHeartbeatInfo k v b
      | .ipv4Address => storeIpv4 v b
      | .ipv6Address => storeIpv6 v b
      | .stateCookie => storeStateCookie k v b
      | .cookiePreservative => storeCookiePreservative k v b
      | .hostName => storeHostName v b
      | .supportedExtensions => storeSupportedExtensions v b
      | .forwardTSNSupported => storeForwardTSNSupported v b := by
  rw [storeParam, hk.paramKindOf]
  cases x <;> rfl

/-- A HEARTBEAT or HEARTBEAT-ACK takes its info once, and no other parameter (43 R237). -/
theorem storeParam_heartbeat_foreign {f : Byte} {t : U16} {info : Option (List Byte)} (v : List Byte)
    (h : t ≠ k.ptHeartbeatInfo ∨ info ≠ none) :
    storeParam k t v (.heartbeat f info) = none ∧ storeParam k t v (.heartbeatAck f info) = none := by
  cases hx : k.paramKindOf t with
  | none => simp [storeParam, hx, keepUnrecognised]
  | some x =>
    obtain rfl := paramType_of_kindOf hx
    rw [storeParam_paramType hk, storeParam_paramType hk]
    cases x
    case heartbeatInfo =>
      obtain ⟨i, rfl⟩ := Option.ne_none_iff_exists'.1 (h.resolve_left (not_not_intro rfl))
      exact ⟨rfl, rfl⟩
    all_goals exact ⟨rfl, rfl⟩

end

theorem storeCookiePreservative_be4 (k : Codes) (f : Byte) (r : InitRec) (life : Option U32) (n : U32) :
    storeCookiePreservative k (be4 n) (.init f r life) = some (.init f r (some n)) := by
  simp [storeCookiePreservative, be4_eq, ofBe4_extract]

theorem storeCookiePreservative_length {k : Codes} {f : Byte} {r : InitRec} {life : Option U32} {v : List Byte}
    (h : v.length ≠ 4) : storeCookiePreservative k v (.init f r life) = none := by
  match v with
  | [_, _, _, _] => exact absurd rfl h
  | [] | [_] | [_, _] | [_, _, _] | _ :: _ :: _ :: _ :: _ :: _ => rfl

theorem storeForwardTSNSupported_init (v : List Byte) (f : Byte) (r : InitRec) (life : Option U32) :
    storeForwardTSNSupported v (.init f r life) =
      if v.length = 0 then some (.init f { r with forwardTSNSupported := true } life) else none := by
  simp only [storeForwardTSNSupported, List.length_eq_zero_iff]

theorem storeForwardTSNSupported_initAck (v : List Byte) (f : Byte) (r : InitRec) (ck : Option (List Byte)) :
    storeForwardTSNSupported v (.initAck f r ck) =
      if v.length = 0 then some (.initAck f { r with forwardTSNSupported := true } ck) else none := by
  simp only [storeForwardTSNSupported, List.length_eq_zero_iff]

/-- Settles O10: the type selects the row of R184, whose two columns are the cases of the storing functions. -/
theorem parameterStoring : Obligations.ParameterStoring := by
  intro k f r life ck v hk
  have hrow := storeParam_paramType hk
  refine ⟨hrow .ipv4Address _ _, hrow .ipv4Address _ _, hrow .ipv6Address _ _, hrow .ipv6Address _ _,
    hrow .stateCookie _ _, fun n => ?_, fun hv => ?_, hrow .hostName _ _, hrow .hostName _ _,
    hrow .supportedExtensions _ _, hrow .supportedExtensions _ _, ?_, ?_,
    fun t ht => (SharedPart.init f life).storeParam_unaccepted ht v r,
    fun t ht => (SharedPart.initAck f ck).storeParam_unaccepted ht v r,
    hrow .heartbeatInfo _ _, hrow .heartbeatInfo _ _, fun t info h => storeParam_heartbeat_foreign hk v h⟩
  · exact (hrow .cookiePreservative _ _).trans (storeCookiePreservative_be4 k f r life n)
  · exact (hrow .cookiePreservative _ _).trans (storeCookiePreservative_length hv)
  · exact (hrow .forwardTSNSupported _ _).trans (storeForwardTSNSupported_init v f r life)
  · exact (hrow .forwardTSNSupported _ _).trans (storeForwardTSNSupported_initAck v f r ck)

/-! ## The fixed part of an INIT and an INIT-ACK -/

theorem exists_be2_append {b : List Byte} {n : Nat} (h : n + 2 ≤ b.length) :
    ∃ v tail, b = be2 v ++ tail ∧ n ≤ tail.length := by
  match b with
  | x :: y :: tail => exact ⟨ofBe2 x y, tail, by rw [be2_ofBe2]; rfl, by simpa using h⟩
  | [] | [_] => simp at h

theorem exists_be4_append {b : List Byte} {n : Nat} (h : n + 4 ≤ b.length) :
    ∃ v tail, b = be4 v ++ tail ∧ n ≤ tail.length := by
  match b with
  | x :: y :: z :: w :: tail => exact ⟨ofBe4 x y z w, tail, by rw [be4_ofBe4]; rfl, by simpa using h⟩
  | [] | [_] | [_, _] | [_, _, _] => simp at h

/-- A body of 16 bytes or more begins with the five fields of R180, which the parser reads. -/
theorem parseInitFixed_of_length {b : List Byte} (h : 16 ≤ b.length) : ∃ tag arwnd out inb itsn tail,
    b = be4 tag ++ (be4 arwnd ++ (be2 out ++ (be2 inb ++ (be4 itsn ++ tail)))) ∧
    parseInitFixed b = some (⟨tag, arwnd, out, inb, itsn, [], [], none, none, false, []⟩, tail) := by
  obtain ⟨tag, b1, rfl, h1⟩ := exists_be4_append (n := 12) h
  obtain ⟨arwnd, b2, rfl, h2⟩ := exists_be4_append (n := 8) h1
  obtain ⟨out, b3, rfl, h3⟩ := exists_be2_append (n := 6) h2
  obtain ⟨inb, b4, rfl, h4⟩ := exists_be2_append (n := 4) h3
  obtain ⟨itsn, tail, rfl, -⟩ := exists_be4_append (n := 0) h4
  refine ⟨tag, arwnd, out, inb, itsn, tail, rfl, ?_⟩
  have hfixed := parseInitFixed_append ⟨tag, arwnd, out, inb, itsn, [], [], none, none, false, []⟩ tail
  simpa only [initFixedImage, InitRec.fixedPart, List.append_assoc] using hfixed

theorem parseInitFixed_short {b : List Byte} (h : b.length < 16) : parseInitFixed b = none := if_pos h

/-! ## The lists of a SACK -/

theorem parseGaps_of_le : ∀ {n : Nat} {rd : Reader}, 4 * n ≤ rd.left →
    ∃ gs rd', parseGaps n rd = some (gs, rd') ∧ rd'.left = rd.left - 4 * n
  | 0, rd, _ => ⟨[], rd, rfl, rfl⟩
  | n + 1, ⟨p, bytes⟩, h => by
    obtain ⟨v, b1, rfl, h1⟩ := exists_be2_append (n := 4 * n + 2) (b := bytes) (by rw [Reader.left] at h; dsimp only at h; omega)
    obtain ⟨w, tail, rfl, h2⟩ := exists_be2_append (n := 4 * n) h1
    obtain ⟨gs, rd', hrest, hleft⟩ := parseGaps_of_le (n := n) (rd := ⟨p + 2 + 2, tail⟩) h2
    refine ⟨(v, w) :: gs, rd', by simp [parseGaps, hrest], ?_⟩
    simp only [Reader.left, List.length_append, be2_length] at hleft ⊢
    omega

theorem parseDups_of_le : ∀ {m : Nat} {rd : Reader}, 4 * m ≤ rd.left → ∃ ds rd', parseDups m rd = some (ds, rd')
  | 0, rd, _ => ⟨[], rd, rfl⟩
  | m + 1, ⟨p, bytes⟩, h => by
    obtain ⟨v, tail, rfl, h1⟩ := exists_be4_append (n := 4 * m) (b := bytes) (by rw [Reader.left] at h; dsimp only at h; omega)
    obtain ⟨ds, rd', hrest⟩ := parseDups_of_le (m := m) (rd := ⟨p + 4, tail⟩) h1
    exact ⟨v :: ds, rd', by simp [parseDups, hrest]⟩

/-- A SACK parses exactly where its lists are as long as their counts say (43 R229). -/
theorem parseSack_lists (f : Byte) (cum a : U32) (n m : U16) (lists : List Byte) :
    (lists.length = 4 * n.toNat + 4 * m.toNat → ∃ r,
      parseSack f (be4 cum ++ (be4 a ++ (be2 n ++ (be2 m ++ lists)))) = some (.sack f r)) ∧
    (lists.length ≠ 4 * n.toNat + 4 * m.toNat →
      parseSack f (be4 cum ++ (be4 a ++ (be2 n ++ (be2 m ++ lists)))) = none) := by
  have hlen : ¬ (be4 cum ++ (be4 a ++ (be2 n ++ (be2 m ++ lists)))).length < 12 := by
    simp only [List.length_append, be4_length, be2_length]; omega
  refine ⟨fun heq => ?_, fun hne => ?_⟩ <;> rw [parseSack, if_neg hlen]
  · obtain ⟨gs, rd, hgaps, hleft⟩ := parseGaps_of_le (n := n.toNat) (rd := ⟨0 + 4 + 4 + 2 + 2, lists⟩)
      (by rw [Reader.left]; dsimp only; omega)
    obtain ⟨ds, rd', hdups⟩ := parseDups_of_le (m := m.toNat) (rd := rd)
      (by rw [hleft, Reader.left]; dsimp only; omega)
    exact ⟨⟨cum, a, gs, ds⟩, by simp [Reader.ofBytes, Reader.left, heq, hgaps, hdups]⟩
  · simp [Reader.ofBytes, Reader.left, hne]

theorem parseSack_short {f : Byte} {b : List Byte} (h : b.length < 12) : parseSack f b = none := if_pos h

theorem parseData_short {f : Byte} {b : List Byte} (h : b.length < 12) : parseData f b = none := if_pos h

theorem parseData_fields (f : Byte) (tsn : U32) (sid ssn : U16) (ppid : U32) (payload : List Byte) :
    parseData f (be4 tsn ++ (be2 sid ++ (be2 ssn ++ (be4 ppid ++ payload)))) =
      some (.data f ⟨tsn, sid, ssn, ppid, payload⟩) := by
  have hlen : ¬ (be4 tsn ++ (be2 sid ++ (be2 ssn ++ (be4 ppid ++ payload)))).length < 12 := by
    simp only [List.length_append, be4_length, be2_length]; omega
  rw [parseData, if_neg hlen]
  simp [Reader.ofBytes, Reader.getBytes, Reader.left]

theorem parseShutdown_length {f : Byte} {b : List Byte} :
    (b.length = 4 → ∃ cum, parseShutdown f b = some (.shutdown f cum)) ∧ (b.length ≠ 4 → parseShutdown f b = none) := by
  refine ⟨fun h => ?_, fun h => if_pos h⟩
  obtain ⟨cum, tail, rfl, -⟩ := exists_be4_append (n := 0) (b := b) (by omega)
  exact ⟨cum, by rw [parseShutdown, if_neg (by simpa using h)]; simp [Reader.ofBytes]⟩

theorem parseEmpty_nil (r : Chunk) : parseEmpty r [] = some r := rfl

theorem parseEmpty_ne_nil {r : Chunk} {b : List Byte} (h : b ≠ []) : parseEmpty r b = none := if_neg h

namespace Machine

/-! ## Bodies parsed whole, and bodies that go on -/

section
variable {s : State} {rx : Space} {pc next : Nat} {c : RawChunk} (hi : s.ingress = some ⟨rx, pc, none⟩)
  (hc : c.wellFormed = true) (hnext : next = min (pc + pad4 c.length.toNat) rx.size)
include hi hc hnext

theorem runChunk_parsed (t : Byte) (r : Chunk) : runChunk t c (some r) s = .next (process r (s.atChunk rx next)) := by
  subst hnext
  exact runChunk_record hi t hc r

theorem runChunk_failed (t : Byte) : runChunk t c none s = .next (s.chunkFailed rx pc next t) := by
  subst hnext
  exact runChunk_malformed hi t hc

theorem openChunk_failed (t : Byte) : openChunk t c none s = .next (s.chunkFailed rx pc next t) := by
  subst hnext
  exact openChunk_malformed hi t hc

/-- With bytes left the parameter list is open on them (log 2). -/
theorem openChunk_opened (t : Byte) (b : Building) {tail : List Byte} (ht : tail ≠ []) :
    openChunk t c (some (b, tail)) s = .next { s with ingress := some ⟨rx, pc, some ⟨b, ⟨0, tail⟩, next⟩⟩ } := by
  subst hnext
  rw [openChunk_start hi t hc]
  exact congrArg _ (continueParams_more (by simpa [Reader.ofBytes, Reader.left] using ht) rx pc s)

/-- With no byte left a record that needs no parameter is complete. -/
theorem openChunk_complete (t : Byte) {b : Building} {r : Chunk} (hb : b.close = some r) :
    openChunk t c (some (b, [])) s = .next (process r (s.atChunk rx next)) := by
  subst hnext
  rw [openChunk_start hi t hc]
  exact congrArg _ (continueParams_done (q := ⟨b, Reader.ofBytes [], _⟩) rfl hi rfl hb)

end

theorem ofChunk_mem_of_isList {x : ChunkKind} (h : x.isList = true) (c : RawChunk) :
    Instr.ofChunk c x ∈ [Instr.init c, .initAck c, .heartbeat c, .heartbeatAck c] := by
  cases x <;> simp only [ChunkKind.isList, Bool.false_eq_true] at h
  all_goals simp [Instr.ofChunk]

/-- Settles O34: such an instruction is the one its type selects, and the type is of no list kind. -/
theorem wholeBodyChunk : Obligations.WholeBodyChunk := by
  intro i t c s rx pc hk ho hw hlist hi
  have hsel := selectChunk_chunkOperands hk ho hw
  have hc := chunkOperands_wellFormed ho hw
  have hrun : exec i s = runChunk t c (parseBody s.params.codes t c.flag c.body) s := by
    rw [← hsel]
    refine exec_selectChunk_whole fun x hx => ?_
    rw [← hsel, selectChunk_kind hx] at hlist
    exact Bool.eq_false_iff.2 fun hl => hlist (ofChunk_mem_of_isList hl c)
  rw [hrun]
  refine ⟨fun r hr => ?_, fun hr => ?_⟩ <;> rw [hr]
  · exact runChunk_parsed hi hc rfl t r
  · exact runChunk_failed hi hc rfl t

/-- Settles O35: the fixed part's length is the parser's first test, and what follows it is the parameter list. -/
theorem listChunk : Obligations.ListChunk := by
  intro c s rx pc next hc hi hnext
  refine ⟨fun hshort => ?_, fun hlong => ?_, fun hshort => ?_, fun hlong => ?_⟩
  · rw [exec, execInit, exec, execInitAck, openInit, openInitAck, parseInitFixed_short hshort]
    exact ⟨openChunk_failed hi hc hnext _, openChunk_failed hi hc hnext _⟩
  · obtain ⟨tag, arwnd, out, inb, itsn, tail, hbody, hfixed⟩ := parseInitFixed_of_length hlong
    refine ⟨tag, arwnd, out, inb, itsn, _, tail, hbody, rfl, fun ht => ?_, fun ht => ?_⟩ <;>
      rw [exec, execInit, exec, execInitAck, openInit, openInitAck, hfixed]
    · subst ht
      exact ⟨openChunk_complete hi hc hnext _ rfl, openChunk_complete hi hc hnext _ rfl⟩
    · exact ⟨openChunk_opened hi hc hnext _ _ ht, openChunk_opened hi hc hnext _ _ ht⟩
  · rw [exec, execHeartbeat, exec, execHeartbeatAck, openHeartbeat, openHeartbeatAck, if_pos hshort, if_pos hshort]
    exact ⟨openChunk_failed hi hc hnext _, openChunk_failed hi hc hnext _⟩
  · have hne : c.body ≠ [] := List.ne_nil_of_length_pos (by omega)
    rw [exec, execHeartbeat, exec, execHeartbeatAck, openHeartbeat, openHeartbeatAck, if_neg (by omega),
      if_neg (by omega)]
    exact ⟨openChunk_opened hi hc hnext _ _ hne, openChunk_opened hi hc hnext _ _ hne⟩

theorem rawChunk_unusable_length (f : Byte) {l : U16} {tail : List Byte}
    (h : l.toNat < 4 ∨ 4 + tail.length < l.toNat) : (rawChunk f l tail).lengthUsable = false := by
  rw [RawChunk.lengthUsable_eq, Bool.eq_false_iff, Ne, (rawChunk_facts f l tail).2.2.1]
  omega

theorem rawParam_unusable_length {l : U16} {tail : List Byte} (h : l.toNat < 4 ∨ 4 + tail.length < l.toNat) :
    (rawParam l tail).lengthUsable = false := by
  rw [RawParam.lengthUsable_eq, Bool.eq_false_iff, Ne, (rawParam_facts l tail).2.1]
  omega

/-- Settles O36: the operands of the header at `pc` fail the length test, whatever instruction the type selects. -/
theorem invalidChunkLength : Obligations.InvalidChunkLength := by
  rintro s rx pc l hi hmore rfl hbad
  rw [step_chunk hi hmore, exec_selectChunk_unusable hi]
  · rw [(rawChunk_facts _ _ _).2.1]
  · exact rawChunk_unusable_length _ (by rw [Memory.readBytes_length]; omega)

/-! ## Parameters -/

/-- Every parameter instruction is the shared parameter step with some way of storing. -/
theorem exec_paramOperands {i : Instr} {k : Codes} {t : U16} {p : RawParam} (h : i.paramOperands k = some (t, p))
    (s : State) : ∃ store, exec i s = runParam p store s := by
  cases i <;> simp only [Instr.paramOperands, Option.some.injEq, Prod.mk.injEq, reduceCtorEq] at h
  all_goals obtain ⟨-, rfl⟩ := h; exact ⟨_, rfl⟩

/-- The reader after a parameter that began at a boundary of 4: past its padding, or at the end of the list. -/
theorem skipPad_param {p : Nat} (hp : p % 4 = 0) (n : Nat) (bytes : List Byte) :
    (pad4 n < bytes.length → Reader.skipPad ⟨p + n, bytes.drop n⟩ = ⟨p + pad4 n, bytes.drop (pad4 n)⟩) ∧
    (bytes.length ≤ pad4 n → (Reader.skipPad ⟨p + n, bytes.drop n⟩).left = 0) := by
  obtain ⟨-, hsum⟩ := padlen_spec n
  rw [Reader.skipPad, padlen_add_of_mod hp]
  simp only [Reader.left, List.length_drop, List.drop_drop]
  refine ⟨fun hlt => ?_, fun hle => by omega⟩
  rw [Nat.min_eq_left (by omega), Nat.add_assoc, hsum]

/-- Settles O44: `StoreParam` decides, and the reader stands past the padding or at the end of the list. -/
theorem parameterStep : Obligations.ParameterStep := by
  rintro i t p s rx pc size q k rfl hk ho hw hi rfl hin haligned
  have hsel := selectParam_paramOperands hk ho hw
  have hp : p.lengthUsable = true := paramOperands_wellFormed ho hw
  have hrun := hsel ▸ exec_selectParam s t p
  obtain ⟨hmore, hdone⟩ := skipPad_param haligned (4 + p.value.length) q.reader.rest
  rw [hrun]
  refine ⟨fun hs => runParam_refused hi hs, fun b hs => ?_⟩
  rw [runParam_stored hi hp hs hin]
  refine ⟨fun hlt => ?_, fun hle => ?_⟩
  · rw [hmore hlt]
    refine congrArg _ (continueParams_more ?_ rx pc s)
    simp only [Reader.left, List.length_drop]
    omega
  · obtain ⟨⟨r, hclose⟩, -⟩ := storeParam_close hs
    exact ⟨r, hclose, congrArg _ (continueParams_done (hdone hle) hi rfl hclose)⟩

/-- Settles O45: the length test of the parameter step, and the test for stray bytes. -/
theorem parameterListErrors : Obligations.ParameterListErrors := by
  refine ⟨fun i t p s rx pc q ho hp hi => ?_, fun s rx pc q t1 t0 l1 l0 tail hi hr hbad => ?_,
    fun s rx pc q hi h1 h3 => step_stray hi h1 h3⟩
  · obtain ⟨store, hrun⟩ := exec_paramOperands ho s
    rw [hrun]
    exact runParam_unusable hi hp store
  · rw [step_param hi hr]
    exact runParam_unusable hi (rawParam_unusable_length hbad) _

end Machine

end Sys2Proof
end

section
/-! PROOFS. `Process` (47_association_dispatch.md R350 to R365): the pairs without a row, then each row of the table, from
the chunk instruction that leads to it. -/

namespace Sys2Proof.Machine

/-! ## Pairs without a row -/

/-- An ignored chunk of an instruction: one log entry, the cursor at the next chunk (R365, 44 R252). -/
def State.chunkIgnored (rx : Space) (next : Nat) (t : Byte) (s : State) : State :=
  { s with log := s.log ++ [.stateViolation s.state t], ingress := some ⟨rx, next, none⟩ }

theorem process_init {s : State} (h : s.state = .closed) (f : Byte) (r : InitRec) (life : Option U32) :
    process (.init f r life) s = processInit r s := if_pos h

theorem process_cookieEcho {s : State} (h : s.state = .closed) (f : Byte) (x : List Byte) :
    process (.cookieEcho f x) s = processCookieEcho s := if_pos h

theorem process_initAck {s : State} (h : s.state = .cookieWait) (f : Byte) (r : InitRec) (x : List Byte) :
    process (.initAck f r (some x)) s = processInitAck r x s := if_pos h

theorem process_cookieAck {s : State} (h : s.state = .cookieEchoed) (f : Byte) :
    process (.cookieAck f) s = processCookieAck s := if_pos h

theorem process_data {s : State} (h : s.state = .established) (f : Byte) (r : DataRec) :
    process (.data f r) s = processData f r s := if_pos h

/-- An INIT-ACK without its cookie has no effect in any state (R354). -/
theorem process_initAck_noCookie (f : Byte) (r : InitRec) (s : State) :
    process (.initAck f r none) s = ignoreChunk (.initAck f r none) s := ite_self _

/-- Settles O38: what is left of the table when its five rows are taken away. -/
theorem pairsWithoutARowIgnored : Obligations.PairsWithoutARowIgnored := by
  intro c s hinit hecho hinitAck hack hdata
  cases c
  case init f r life => exact if_neg (hinit f r life rfl)
  case cookieEcho f x => exact if_neg (hecho f x rfl)
  case cookieAck f => exact if_neg (hack f rfl)
  case data f r => exact if_neg (hdata f r rfl)
  case initAck f r ck =>
    by_cases hw : s.state = .cookieWait
    · obtain rfl := hinitAck f r ck rfl hw
      exact process_initAck_noCookie f r s
    · exact if_neg hw
  all_goals rfl

section
variable {s : State} {rx : Space} {pc next : Nat} {c : RawChunk} (hi : s.ingress = some ⟨rx, pc, none⟩)
  (hc : c.wellFormed = true) (hnext : next = min (pc + pad4 c.length.toNat) rx.size)
include hi hc hnext

/-- A record that `Process` ignores leaves one log entry and the cursor at the next chunk. -/
theorem runChunk_ignored {r : Chunk} (hr : process r (s.atChunk rx next) = ignoreChunk r (s.atChunk rx next)) :
    runChunk (r.typeCode s.params.codes) c (some r) s =
      .next (s.chunkIgnored rx next (r.typeCode s.params.codes)) := by
  rw [runChunk_parsed hi hc hnext, hr]
  rfl

theorem exec_shutdown_eq : exec (.shutdown c) s = .next (if c.body.length = 4
    then s.chunkIgnored rx next s.params.codes.ctShutdown
    else s.chunkFailed rx pc next s.params.codes.ctShutdown) := by
  rw [exec, execShutdown]
  split
  next h4 =>
    obtain ⟨cum, hparse⟩ := parseShutdown_length.1 h4
    rw [hparse]
    exact runChunk_ignored hi hc hnext (r := .shutdown c.flag cum) rfl
  next h4 =>
    rw [parseShutdown_length.2 h4]
    exact runChunk_failed hi hc hnext _

/-- A header-only chunk is ignored with an empty body, and fails with any other (44 R267, R268). -/
theorem runChunk_empty_ignored {r : Chunk}
    (hr : process r (s.atChunk rx next) = ignoreChunk r (s.atChunk rx next)) :
    runChunk (r.typeCode s.params.codes) c (parseEmpty r c.body) s = .next (if c.body.length = 0
      then s.chunkIgnored rx next (r.typeCode s.params.codes)
      else s.chunkFailed rx pc next (r.typeCode s.params.codes)) := by
  split
  next h0 =>
    rw [List.length_eq_zero_iff.1 h0, parseEmpty_nil]
    exact runChunk_ignored hi hc hnext hr
  next h0 =>
    rw [parseEmpty_ne_nil (mt List.length_eq_zero_iff.2 h0)]
    exact runChunk_failed hi hc hnext _

theorem exec_sack_lists {cum a : U32} {n m : U16} {lists : List Byte}
    (hbody : c.body = be4 cum ++ (be4 a ++ (be2 n ++ (be2 m ++ lists)))) :
    exec (.sack c) s = .next (if lists.length = 4 * n.toNat + 4 * m.toNat
      then s.chunkIgnored rx next s.params.codes.ctSack
      else s.chunkFailed rx pc next s.params.codes.ctSack) := by
  obtain ⟨hsome, hnone⟩ := parseSack_lists c.flag cum a n m lists
  rw [exec, execSack, hbody]
  split
  next heq =>
    obtain ⟨r, hparse⟩ := hsome heq
    rw [hparse]
    exact runChunk_ignored hi hc hnext (r := .sack c.flag r) rfl
  next hne =>
    rw [hnone hne]
    exact runChunk_failed hi hc hnext _

theorem exec_sack_short (h : c.body.length < 12) :
    exec (.sack c) s = .next (s.chunkFailed rx pc next s.params.codes.ctSack) := by
  rw [exec, execSack, parseSack_short h]
  exact runChunk_failed hi hc hnext _

end

/-- Settles O37: the parser decides between one log entry and another, and `Process` has no row for these records. -/
theorem chunksIgnoredInEveryState : Obligations.ChunksIgnoredInEveryState := by
  rintro c s rx pc next k hc rfl hi hnext
  exact ⟨fun t => s.chunkIgnored rx next t, fun _ => rfl,
    runChunk_ignored hi hc hnext (r := .abort c.flag c.body) rfl,
    runChunk_ignored hi hc hnext (r := .error c.flag c.body) rfl,
    runChunk_ignored hi hc hnext (r := .reConfig c.flag c.body) rfl,
    runChunk_ignored hi hc hnext (r := .padding c.flag c.body) rfl,
    runChunk_ignored hi hc hnext (r := .forwardTSN c.flag c.body) rfl,
    fun t => runChunk_ignored hi hc hnext (r := .unknown t c.flag c.body) rfl,
    exec_shutdown_eq hi hc hnext,
    runChunk_empty_ignored hi hc hnext (r := .shutdownAck c.flag) rfl,
    runChunk_empty_ignored hi hc hnext (r := .shutdownComplete c.flag) rfl,
    exec_sack_short hi hc hnext, fun _ _ _ _ _ => exec_sack_lists hi hc hnext⟩

/-! ## The handshake rows -/

namespace State

theorem arm_init (s : State) (d : Nat) : s.arm .init d = { s with
    timers := { s.timers with init := .armed d }, events := s.events ++ [.timerArm .init d] } := rfl

theorem arm_cookie (s : State) (d : Nat) : s.arm .cookie d = { s with
    timers := { s.timers with cookie := .armed d }, events := s.events ++ [.timerArm .cookie d] } := rfl

end State

/-- The two draws change only what they draw, and the tag is never 0 (46 R313). -/
theorem State.drawLocalIdentity_eq (s : State) : ∃ tag tsn draws n, tag ≠ 0 ∧ s.drawLocalIdentity =
    { s with localVerificationTag := tag, localInitialTSN := tsn, draws := draws, freeDraws := n } := by
  have htag := drawLocalIdentity_tag_ne_zero s
  obtain ⟨tag, tsn, draws, n, hdraw⟩ := drawLocalIdentity_frame s
  rw [hdraw] at htag
  exact ⟨tag, tsn, draws, n, htag, hdraw⟩

/-- Settles O39: the two draws are the shared ones, made after the peer's tag is stored. -/
theorem initInClosed : Obligations.InitInClosed := by
  intro s f r life hclosed
  rw [process_init hclosed, processInit]
  refine ⟨_, fun _ _ _ _ => rfl, ?_, fun k tag tsn rest ht hdraws => ?_⟩
  · obtain ⟨tag, tsn, draws, n, htag, hdraw⟩ :=
      State.drawLocalIdentity_eq { s with remoteVerificationTag := r.initiateTag }
    rw [hdraw]
    exact ⟨tag, tsn, draws, n, htag, rfl⟩
  · rw [State.drawLocalIdentity_injected { s with remoteVerificationTag := r.initiateTag } k tag tsn rest ht hdraws]
    rfl

/-- The state in which an INIT-ACK's row enqueues its COOKIE-ECHO: the timer cancelled, the peer's values stored. -/
def State.initAckStored (r : InitRec) (cookie : List Byte) (s : State) : State := { s with
  timers := { s.timers with init := .idle }
  events := s.events ++ (if s.timers.init = .idle then [] else [.timerCancel .init])
  remoteVerificationTag := r.initiateTag
  peerCookie := cookie
  initRetransmissions := 0 }

theorem processInitAck_eq (r : InitRec) (cookie : List Byte) (s : State) :
    processInitAck r cookie s = { (s.initAckStored r cookie).enqueue (.cookieEcho 0 cookie) with
      timers := ⟨.idle, .armed s.params.initRetransmitTimeout, s.timers.sack⟩
      events := ((s.initAckStored r cookie).enqueue (.cookieEcho 0 cookie)).events ++
        [.timerArm .cookie s.params.initRetransmitTimeout]
      state := .cookieEchoed } := by
  rw [processInitAck, State.cancel_init]
  simp only [State.arm_cookie, State.enqueue_timers, State.enqueue_params, State.initAckStored]

/-- Settles O40: `Cancel` and `Arm` stand around the `Enqueue` of the COOKIE-ECHO, which leaves the timers alone. -/
theorem initAckInCookieWait : Obligations.InitAckInCookieWait := by
  refine fun s f r hwait => ⟨?_, fun cookie => ⟨_, rfl, ?_⟩⟩
  · rw [process_initAck_noCookie, ← hwait]
    rfl
  · rw [process_initAck hwait, processInitAck_eq]
    rfl

section
variable {s : State} {rx : Space} {pc next : Nat} {c : RawChunk} (hi : s.ingress = some ⟨rx, pc, none⟩)
  (hc : c.wellFormed = true) (hnext : next = min (pc + pad4 c.length.toNat) rx.size)
include hi hc hnext

theorem exec_cookieEcho_closed (h : s.state = .closed) :
    exec (.cookieEcho c) s = .next { State.enqueue (.cookieAck 0) (s.atChunk rx next) with state := .established } := by
  rw [exec, execCookieEcho, runChunk_parsed hi hc hnext, process_cookieEcho (s := s.atChunk rx next) h]
  rfl

theorem exec_cookieEcho_ignored (h : s.state ≠ .closed) :
    exec (.cookieEcho c) s = .next (s.chunkIgnored rx next s.params.codes.ctCookieEcho) :=
  runChunk_ignored hi hc hnext (r := .cookieEcho c.flag c.body) (if_neg h)

theorem exec_cookieAck_echoed (hb : c.body = []) (h : s.state = .cookieEchoed) :
    exec (.cookieAck c) s = .next { s with
      timers := { s.timers with cookie := .idle }
      events := s.events ++ (if s.timers.cookie = .idle then [] else [.timerCancel .cookie])
      state := .established
      ingress := some ⟨rx, next, none⟩ } := by
  rw [exec, execCookieAck, hb, parseEmpty_nil, runChunk_parsed hi hc hnext,
    process_cookieAck (s := s.atChunk rx next) h, processCookieAck, State.cancel_cookie]
  rfl

theorem exec_cookieAck_ignored (hb : c.body = []) (h : s.state ≠ .cookieEchoed) :
    exec (.cookieAck c) s = .next (s.chunkIgnored rx next s.params.codes.ctCookieAck) := by
  rw [exec, execCookieAck, hb, parseEmpty_nil]
  exact runChunk_ignored hi hc hnext (r := .cookieAck c.flag) (if_neg h)

theorem exec_cookieAck_failed (hb : c.body ≠ []) :
    exec (.cookieAck c) s = .next (s.chunkFailed rx pc next s.params.codes.ctCookieAck) := by
  rw [exec, execCookieAck, parseEmpty_ne_nil hb]
  exact runChunk_failed hi hc hnext _

end

/-- Settles O41: the body is the cookie whatever it holds, so the state alone decides. -/
theorem cookieEchoEstablishes : Obligations.CookieEchoEstablishes :=
  fun _ _ _ _ _ hc hi hnext => ⟨exec_cookieEcho_closed hi hc hnext, exec_cookieEcho_ignored hi hc hnext⟩

/-- Settles O42: the body decides whether the chunk parses, the state whether it has its row. -/
theorem cookieAckEstablishes : Obligations.CookieAckEstablishes :=
  fun _ _ _ _ _ hc hi hnext => ⟨exec_cookieAck_echoed hi hc hnext, exec_cookieAck_ignored hi hc hnext,
    exec_cookieAck_failed hi hc hnext⟩

/-! ## DATA -/

/-- The acknowledgement decision of R358, its four tests as propositions. -/
theorem ackTimeout_eq (s : State) (t : U64) (m : List U64) :
    ackTimeout (!s.lastReceivedTSNValid) (hasGap m) (s.receivedTSNs.contains t) s.timers.sack.isArmed
        s.params.sackTimeout =
      if s.lastReceivedTSNValid = false ∨ hasGap m = true ∨ t ∈ s.receivedTSNs ∨ s.timers.sack ≠ .idle then 0
      else s.params.sackTimeout := by
  rw [ackTimeout]
  refine if_congr ?_ rfl rfl
  rw [← Slot.isArmed_iff_ne_idle]
  simp only [Bool.or_eq_true, Bool.not_eq_true', List.contains_iff_mem, or_assoc]

/-- Settles O43: the fields are read from the body, and the row of R358 sets what it names. -/
theorem dataInEstablished : Obligations.DataInEstablished := by
  intro c s rx pc next hc hi hnext
  refine ⟨fun win w tsn hw => hw ▸ TsnWrapper.wrapTSN_default win w tsn, fun hshort => ?_,
    fun tsn sid ssn ppid payload t m hbody ht hm => ⟨fun hest => ?_, fun hne => ?_⟩⟩
  · rw [exec, execData, parseData_short hshort]
    exact runChunk_failed hi hc hnext _
  · subst ht hm
    rw [exec, execData, hbody, parseData_fields, runChunk_parsed hi hc hnext,
      process_data (s := s.atChunk rx next) hest, ← ackTimeout_eq]
    rfl
  · rw [exec, execData, hbody, parseData_fields]
    exact runChunk_ignored hi hc hnext (r := .data c.flag ⟨tsn, sid, ssn, ppid, payload⟩) (if_neg hne)

end Sys2Proof.Machine
end

section
/-! PROOFS. WritePacket as one operation (46_association_commands.md R322, 44_chunks_other.md R250, log 2): the steps on a
chunk, its parameters included, give what parsing and processing it at once gives; so do the steps on a packet. -/

namespace Sys2Proof.Machine

/-! ## Runs -/

/-- Some number of steps leads from the one state to the other. -/
def Reaches (s s' : State) : Prop := ∃ n, run n s = some s'

theorem Reaches.refl (s : State) : Reaches s s := ⟨0, rfl⟩

theorem run_succ {s s' : State} (h : step s = .next s') (n : Nat) : run (n + 1) s = run n s' := by
  rw [run, h]

theorem Reaches.head {s s' s'' : State} (h : step s = .next s') (hr : Reaches s' s'') : Reaches s s'' := by
  obtain ⟨n, hn⟩ := hr
  exact ⟨n + 1, (run_succ h n).trans hn⟩

theorem Reaches.step {s s' : State} (h : step s = .next s') : Reaches s s' := (Reaches.refl s').head h

theorem Reaches.trans {s s' s'' : State} (h : Reaches s s') (h' : Reaches s' s'') : Reaches s s'' := by
  obtain ⟨n, hn⟩ := h
  induction n generalizing s with
  | zero => exact Option.some.inj hn ▸ h'
  | succ n ih =>
    cases hstep : Machine.step s with
    | next s1 => exact (ih ((run_succ hstep n).symm.trans hn)).head hstep
    | fault => rw [run, hstep] at hn; cases hn
    | refused => rw [run, hstep] at hn; cases hn

/-! ## A parameter list -/

/-- The state in which a chunk at `pc` ends: its record processed, or its failure logged, and the cursor at `next`
(44 R252, R253). -/
def State.chunkDone (rx : Space) (pc next : Nat) (t : Byte) (rec : Option Chunk) (s : State) : State :=
  match rec with
  | some r => process r (s.atChunk rx next)
  | none => s.chunkFailed rx pc next t

section
variable {s : State} {rx : Space} {pc next : Nat} {params : Option ParamList}
  (hi : s.ingress = some ⟨rx, pc, params⟩)
include hi

/-- A list that is used up gives the record it has come to (42 R183). -/
theorem continueParams_end {b : Building} {rd : Reader} (h : rd.left = 0) :
    continueParams rx pc ⟨b, rd, next⟩ s = s.chunkDone rx pc next (b.typeCode s.params.codes) b.close := by
  cases hb : b.close with
  | some r => exact continueParams_done (q := ⟨b, rd, next⟩) h hi rfl hb
  | none => exact continueParams_missing (q := ⟨b, rd, next⟩) h hi rfl hb

end

theorem chunkDone_of_ingress (s : State) (g : Option Ingress) (rx : Space) (pc next : Nat) (t : Byte)
    (rec : Option Chunk) : State.chunkDone rx pc next t rec { s with ingress := g } = s.chunkDone rx pc next t rec := by
  cases rec <;> rfl

/-! The loop of 42 R183 by what stands at the reader. -/

section
variable {k : Codes} {fuel : Nat} {b : Building} {rd : Reader}

theorem parseParams_used (h : rd.left = 0) : parseParams k (fuel + 1) b rd = b.close := by
  rw [parseParams, if_pos h]

theorem parseParams_stray (h1 : 1 ≤ rd.rest.length) (h3 : rd.rest.length ≤ 3) : parseParams k (fuel + 1) b rd = none := by
  obtain ⟨p, bytes⟩ := rd
  match bytes with
  | [_] | [_, _] | [_, _, _] => rfl
  | [] => simp at h1
  | _ :: _ :: _ :: _ :: _ => simp only [List.length_cons] at h3; omega

variable {t1 t0 l1 l0 : Byte} {tail : List Byte} (hr : rd.rest = t1 :: t0 :: l1 :: l0 :: tail)
include hr

theorem parseParams_unusable (h : (rawParam (ofBe2 l1 l0) tail).lengthUsable = false) :
    parseParams k (fuel + 1) b rd = none := by
  simp [parseParams, Reader.left, hr, h]

theorem parseParams_refused (h : storeParam k (ofBe2 t1 t0) (rawParam (ofBe2 l1 l0) tail).value b = none) :
    parseParams k (fuel + 1) b rd = none := by
  simp [parseParams, Reader.left, hr, h]

theorem parseParams_stored {b' : Building} {n : Nat} (hn : n = 4 + (rawParam (ofBe2 l1 l0) tail).value.length)
    (hu : (rawParam (ofBe2 l1 l0) tail).lengthUsable = true)
    (h : storeParam k (ofBe2 t1 t0) (rawParam (ofBe2 l1 l0) tail).value b = some b') :
    parseParams k (fuel + 1) b rd = parseParams k fuel b' (Reader.skipPad ⟨rd.p + n, rd.rest.drop n⟩) := by
  have hvalue := rawParam_value_length_le (ofBe2 l1 l0) tail
  have hleft : ¬ rd.left = 0 := by simp [Reader.left, hr]
  have hskip : rd.skip (4 + (rawParam (ofBe2 l1 l0) tail).value.length) = some ⟨rd.p + n, rd.rest.drop n⟩ := by
    rw [Reader.skip, if_pos (by rw [Reader.left, hr]; simp only [List.length_cons]; omega), hn]
  rw [parseParams, if_neg hleft]
  simp only [hr, hu, h, hskip, if_true]

end

/-- The steps on an open list have the effect of the parameter loop done at once. -/
theorem continueParams_reaches {rx : Space} {pc next : Nat} : ∀ (fuel : Nat) (s : State) (params : Option ParamList)
    (b : Building) (rd : Reader), s.ingress = some ⟨rx, pc, params⟩ → rd.left < fuel →
    Reaches (continueParams rx pc ⟨b, rd, next⟩ s)
      (s.chunkDone rx pc next (b.typeCode s.params.codes) (parseParams s.params.codes fuel b rd))
  | 0, _, _, _, _, _, h => absurd h (Nat.not_lt_zero _)
  | fuel + 1, s, params, b, rd, hi, hfuel => by
    by_cases h0 : rd.left = 0
    · rw [continueParams_end hi h0, parseParams_used h0]
      exact .refl _
    rw [continueParams_more h0]
    generalize hs' : ({ s with ingress := some ⟨rx, pc, some ⟨b, rd, next⟩⟩ } : State) = s'
    have hi' : s'.ingress = some ⟨rx, pc, some ⟨b, rd, next⟩⟩ := by rw [← hs']
    have hcodes : s.params = s'.params := by rw [← hs']
    rw [hcodes, ← chunkDone_of_ingress s (some ⟨rx, pc, some ⟨b, rd, next⟩⟩), hs']
    match hr : rd.rest with
    | [] => exact absurd (by rw [Reader.left, hr]; rfl) h0
    | [_] | [_, _] | [_, _, _] =>
      rw [parseParams_stray (by simp [hr]) (by simp [hr])]
      exact .step (step_stray hi' (by simp [hr]) (by simp [hr]))
    | t1 :: t0 :: l1 :: l0 :: tail =>
      have hstep := step_param hi' hr
      cases hu : (rawParam (ofBe2 l1 l0) tail).lengthUsable with
      | false =>
        rw [parseParams_unusable hr hu]
        exact .step (hstep.trans (runParam_unusable hi' hu _))
      | true =>
        cases hstore : storeParam s'.params.codes (ofBe2 t1 t0) (rawParam (ofBe2 l1 l0) tail).value b with
        | none =>
          rw [parseParams_refused hr hstore]
          exact .step (hstep.trans (runParam_refused hi' hstore))
        | some b' =>
          have hvalue := rawParam_value_length_le (ofBe2 l1 l0) tail
          have hlen : rd.left = 4 + tail.length := by rw [Reader.left, hr]; simp only [List.length_cons]; omega
          have hkind : b.typeCode s'.params.codes = b'.typeCode s'.params.codes := by
            rw [Building.typeCode, Building.typeCode, (storeParam_close hstore).2]
          rw [parseParams_stored hr rfl hu hstore, hkind]
          refine .head (hstep.trans (runParam_stored hi' hu hstore (by dsimp only; omega))) ?_
          refine continueParams_reaches fuel s' _ b' _ hi' ?_
          simp only [Reader.skipPad, Reader.left, List.length_drop] at hlen hfuel ⊢
          omega

/-! ## A chunk -/

/-- The state after the chunk with the operands `c` at `pc` (44 R250 to R253). -/
def State.afterChunk (rx : Space) (pc : Nat) (t : Byte) (c : RawChunk) (s : State) : State :=
  if c.lengthUsable then
    s.chunkDone rx pc (nextChunkAt rx pc c.length) t (parseBody s.params.codes t c.flag c.body)
  else { s with log := s.log ++ [.chunkLengthInvalid pc t c.length], ingress := some ⟨rx, rx.size, none⟩ }

section
variable {s : State} {rx : Space} {pc : Nat} (hi : s.ingress = some ⟨rx, pc, none⟩)
include hi

/-- The steps on a chunk come to the state after it. -/
theorem exec_selectChunk_reaches (t : Byte) (c : RawChunk) :
    ∃ s', exec (selectChunk s.params.codes t c) s = .next s' ∧ Reaches s' (s.afterChunk rx pc t c) := by
  rw [State.afterChunk]
  cases hc : c.lengthUsable with
  | false => exact ⟨_, exec_selectChunk_unusable hi t hc, .refl _⟩
  | true =>
    rcases exec_selectChunk_cases s t c with h | ⟨x, hx, hl, h⟩ <;> rw [h, if_pos rfl]
    · cases parseBody s.params.codes t c.flag c.body with
      | none => exact ⟨_, runChunk_malformed hi t hc, .refl _⟩
      | some r => exact ⟨_, runChunk_record hi t hc r, .refl _⟩
    · rw [parseBody_list hx hl]
      match hopen : openBody c.flag c.body x with
      | none => exact ⟨_, openChunk_malformed hi t hc, .refl _⟩
      | some (b, tail) =>
        refine ⟨_, openChunk_start hi t hc b tail, ?_⟩
        rw [← chunkType_of_kindOf hx, ← openBody_typeCode hopen]
        exact continueParams_reaches (tail.length + 1) s none b (.ofBytes tail) hi (Nat.lt_succ_self _)

variable (hmore : pc + 4 ≤ rx.size)
include hmore

/-- `ParseChunk` and `Process` done at once (R250, R322) give the state after the chunk. -/
theorem chunkOperation_eq_afterChunk : chunkOperation (rx.mem.readBytes pc (rx.size - pc)) pc s =
    s.afterChunk rx pc (rx.byteAt pc) (rawChunk (rx.byteAt (pc + 1)) (ofBe2 (rx.byteAt (pc + 2)) (rx.byteAt (pc + 3)))
      (rx.mem.readBytes (pc + 4) (rx.size - pc - 4))) := by
  have hsize : (rx.mem.readBytes pc (rx.size - pc)).length = rx.size - pc := Memory.readBytes_length _ _ _
  rw [readBytes_chunkHeader hmore] at hsize ⊢
  generalize rx.mem.readBytes (pc + 4) (rx.size - pc - 4) = tail at hsize ⊢
  obtain ⟨hflag, hlen, -⟩ :=
    rawChunk_facts (rx.byteAt (pc + 1)) (ofBe2 (rx.byteAt (pc + 2)) (rx.byteAt (pc + 3))) tail
  generalize hc : rawChunk (rx.byteAt (pc + 1)) (ofBe2 (rx.byteAt (pc + 2)) (rx.byteAt (pc + 3))) tail = c at hflag hlen ⊢
  have hnext : pc + min (pad4 c.length.toNat) (rx.size - pc) = nextChunkAt rx pc c.length := by
    rw [nextChunkAt]; omega
  simp only [chunkOperation, State.afterChunk, parseChunk, hc, hsize, hflag]
  split
  · cases hrec : parseBody s.params.codes (rx.byteAt pc) (rx.byteAt (pc + 1)) c.body with
    | none => simp [State.chunkDone, State.takeError, State.raise, State.resumeAt, State.chunkFailed, hi, hnext]
    | some r => simp [State.chunkDone, State.resumeAt, State.atChunk, hi, hnext]
  · simp [State.takeError, State.raise, State.dropRest, hi, hlen]

theorem chunkOperation_reaches : Reaches s (chunkOperation (rx.mem.readBytes pc (rx.size - pc)) pc s) := by
  rw [chunkOperation_eq_afterChunk hi hmore]
  obtain ⟨s', hexec, hreaches⟩ := exec_selectChunk_reaches hi _ _
  exact hreaches.head ((step_chunk hi hmore).trans hexec)

end

/-- Every chunk moves the cursor on, inside the packet. -/
theorem afterChunk_ingress {rx : Space} {pc : Nat} (hmore : pc + 4 ≤ rx.size) (t : Byte) (c : RawChunk) (s : State) :
    ∃ pc', (s.afterChunk rx pc t c).ingress = some ⟨rx, pc', none⟩ ∧ pc < pc' := by
  rw [State.afterChunk]
  split
  next hc =>
    have hlen : c.length.toNat = 4 + c.body.length := by simpa [RawChunk.lengthUsable] using hc
    obtain ⟨hpad, -⟩ := pad4_spec c.length.toNat
    refine ⟨nextChunkAt rx pc c.length, ?_, by rw [nextChunkAt]; omega⟩
    cases parseBody s.params.codes t c.flag c.body with
    | none => rfl
    | some r => exact process_ingress r _
  next => exact ⟨rx.size, rfl, by omega⟩

/-- Settles O50: one step to the chunk's instruction, then a step for each of its parameters. -/
theorem chunkStepsAreOneOperation : Obligations.ChunkStepsAreOneOperation :=
  fun _ _ _ hi hmore => chunkOperation_reaches hi hmore

/-! ## A packet -/

/-- The steps on a packet have the effect of the chunk loop, given fuel for the bytes that are left. -/
theorem chunkLoop_reaches {rx : Space} : ∀ (fuel : Nat) (s : State) (pc : Nat), s.ingress = some ⟨rx, pc, none⟩ →
    rx.size - pc < fuel → Reaches s (chunkLoop fuel s) ∧ (chunkLoop fuel s).ingress = none
  | 0, _, _, _, h => absurd h (Nat.not_lt_zero _)
  | fuel + 1, s, pc, hi, hfuel => by
    simp only [chunkLoop, hi]
    split
    next hend => exact ⟨.step (step_endOfPacket hi (by omega)), rfl⟩
    next hmore =>
      have hmore' : pc + 4 ≤ rx.size := by omega
      have hchunk := chunkOperation_reaches hi hmore'
      obtain ⟨pc', hi', hlt⟩ := afterChunk_ingress hmore' (rx.byteAt pc) (rawChunk (rx.byteAt (pc + 1))
        (ofBe2 (rx.byteAt (pc + 2)) (rx.byteAt (pc + 3))) (rx.mem.readBytes (pc + 4) (rx.size - pc - 4))) s
      rw [← chunkOperation_eq_afterChunk hi hmore'] at hi'
      obtain ⟨hrest, hnone⟩ := chunkLoop_reaches fuel _ pc' hi' (by omega)
      exact ⟨hchunk.trans hrest, hnone⟩

/-- Settles O51: every chunk takes at least 4 bytes, so `rx.size + 1` is fuel enough for the loop. -/
theorem writePacketStepsAreOneOperation : Obligations.WritePacketStepsAreOneOperation := by
  intro s rx pc hi
  obtain ⟨⟨n, hrun⟩, hnone⟩ := chunkLoop_reaches (rx.size + 1) s pc hi (by omega)
  exact ⟨n, hrun, hnone⟩

end Sys2Proof.Machine
end

section
/-! PROOFS. The commands and the timer fires (46_association_commands.md R311 to R320, R332, 60_exceptions.md R421 to
R424): each from its own tests, then all of them after Abort. -/

namespace Sys2Proof.Machine

/-! ## The ports, the active open, Abort -/

namespace State

/-- "Handshake begins" has not happened yet (R311). -/
theorem portsWritable_iff {s : State} :
    s.portsWritable = true ↔ s.terminated = false ∧ s.state = .closed ∧ s.localVerificationTag = 0 := by
  simp [portsWritable, and_assoc]

theorem cancel_all (s : State) : ((s.cancel .init).cancel .cookie).cancel .sack = { s with
    timers := ⟨.idle, .idle, .idle⟩
    events := s.events ++ (if s.timers.init = .idle then [] else [.timerCancel .init])
      ++ (if s.timers.cookie = .idle then [] else [.timerCancel .cookie])
      ++ (if s.timers.sack = .idle then [] else [.timerCancel .sack]) } := by
  rw [cancel_init, cancel_cookie, cancel_sack]

end State

section
variable {s : State} (hi : s.ingress = none)
include hi

theorem exec_setLocalPort (p : U16) : exec (.setLocalPort p) s = .next
    (if s.portsWritable then { s with localPort := p } else s.raise (.commandIgnored 0x01)) := by
  rw [exec, execSetLocalPort, betweenOperations_none hi]
  split <;> rfl

theorem exec_setRemotePort (p : U16) : exec (.setRemotePort p) s = .next
    (if s.portsWritable then { s with remotePort := p } else s.raise (.commandIgnored 0x02)) := by
  rw [exec, execSetRemotePort, betweenOperations_none hi]
  split <;> rfl

theorem exec_associate_opens (ht : s.terminated = false) (hclosed : s.state = .closed) :
    exec .associate s = .next s.associate := by
  rw [exec, execAssociate, betweenOperations_none hi]
  exact if_neg (by simp [ht, hclosed])

theorem exec_associate_ignored (h : s.terminated = true ∨ s.state ≠ .closed) :
    exec .associate s = .next (s.raise (.commandIgnored 0x03)) := by
  rw [exec, execAssociate, betweenOperations_none hi]
  exact if_pos h

theorem exec_abort_terminated (ht : s.terminated = true) : exec .abort s = .next s := by
  rw [exec, execAbort, betweenOperations_none hi]
  exact if_pos ht

theorem exec_abort_running (ht : s.terminated = false) : exec .abort s = .next { s with
    timers := ⟨.idle, .idle, .idle⟩
    events := s.events ++ (if s.timers.init = .idle then [] else [.timerCancel .init])
      ++ (if s.timers.cookie = .idle then [] else [.timerCancel .cookie])
      ++ (if s.timers.sack = .idle then [] else [.timerCancel .sack])
    queue := []
    pendingData := false
    pendingAcknowledge := false
    state := .closed
    terminated := true } := by
  rw [exec, execAbort, betweenOperations_none hi, if_neg (by simp [ht]), State.cancel_all]

theorem exec_enqueue (c : Chunk) : exec (.enqueue c) s = .next { (s.enqueueResult c).2 with
    results := s.results ++ [.bool (s.enqueueResult c).1] } := by
  have hresults : (s.enqueueResult c).2.results = s.results := State.enqueue_results c s
  rw [exec, execEnqueue, betweenOperations_none hi, State.answer, hresults]

end

/-- Settles O21: the test of R311 is one proposition, and each branch is one next state. -/
theorem portsSetBeforeHandshake : Obligations.PortsSetBeforeHandshake := by
  intro s p hi
  rw [← State.portsWritable_iff, exec_setLocalPort hi, exec_setRemotePort hi]
  refine ⟨fun hw => ?_, fun hw => ?_⟩
  · rw [if_pos hw, if_pos hw]
    exact ⟨rfl, rfl⟩
  · rw [if_neg hw, if_neg hw]
    exact ⟨rfl, rfl⟩

namespace State

/-- What `Associate` does once tag and TSN are drawn (R313): the INIT enqueued, the timer armed, the state entered. -/
def associateDrawn (s : State) : State :=
  { (({ s with initRetransmissions := 0 }).enqueue (buildInit s)) with
    timers := { s.timers with init := .armed s.params.initRetransmitTimeout }
    events := (({ s with initRetransmissions := 0 }).enqueue (buildInit s)).events ++
      [.timerArm .init s.params.initRetransmitTimeout]
    state := .cookieWait }

theorem associate_eq (s : State) : s.associate = s.drawLocalIdentity.associateDrawn := by
  rw [associate]
  generalize s.drawLocalIdentity = d
  simp only [arm_init, enqueue_timers, enqueue_params, associateDrawn]
  congr 1

end State

/-- Settles O22: the draws change only what they draw, and what follows them is one function of the drawn state. -/
theorem associateOpens : Obligations.AssociateOpens := by
  intro s hi
  refine ⟨fun ht hclosed => ?_, exec_associate_ignored hi⟩
  rw [exec_associate_opens hi ht hclosed, State.associate_eq]
  refine ⟨fun tag tsn draws n => State.associateDrawn { s with
      localVerificationTag := tag, localInitialTSN := tsn, draws := draws, freeDraws := n },
    fun tag tsn draws n => ⟨_, rfl, rfl⟩, ?_, fun k tag tsn rest htag hdraws => ?_⟩
  · obtain ⟨tag, tsn, draws, n, htag, hdraw⟩ := State.drawLocalIdentity_eq s
    rw [hdraw]
    exact ⟨tag, tsn, draws, n, htag, rfl⟩
  · rw [State.drawLocalIdentity_injected s k tag tsn rest htag hdraws]

/-- Settles O23: the three cancels in order, then the registers R314 names. -/
theorem abortTerminates : Obligations.AbortTerminates :=
  fun _ hi => ⟨exec_abort_terminated hi, exec_abort_running hi⟩

/-! ## Enqueue -/

namespace State

section
variable {s : State} {c : Chunk}

theorem enqueueResult_terminated (h : s.terminated = true) : s.enqueueResult c = (false, s) := if_pos h

theorem enqueueResult_refused {w : EnqueueReason} (ht : s.terminated = false) (h : s.enqueueRefusal c = some w) :
    s.enqueueResult c = (false, s.raise (.enqueueRefused w (c.typeCode s.params.codes))) := by
  rw [enqueueResult, if_neg (by simp [ht]), h]
  rfl

theorem enqueueResult_accepted (ht : s.terminated = false) (h : s.enqueueRefusal c = none) :
    s.enqueueResult c = (true, s.append c) := by
  rw [enqueueResult, if_neg (by simp [ht]), h]

theorem enqueueRefusal_notWellFormed (h : c.wf s.params.codes = false) :
    s.enqueueRefusal c = some .notWellFormed := if_pos h

theorem enqueueRefusal_full {q : Nat} (hw : c.wf s.params.codes = true) (hq : s.params.queueMax = some q)
    (hle : q ≤ s.queue.length) : s.enqueueRefusal c = some .queueFull := by
  simp [enqueueRefusal, hw, hq, hle]

theorem enqueueRefusal_room (hw : c.wf s.params.codes = true)
    (h : ∀ q, s.params.queueMax = some q → s.queue.length < q) : s.enqueueRefusal c = none := by
  cases hq : s.params.queueMax with
  | none => simp [enqueueRefusal, hw, hq]
  | some q => simpa [enqueueRefusal, hw, hq] using h q hq

end

end State

/-- Settles O24: the refusals are the tests of R316 in order, and the edge is the branch of `append`. -/
theorem enqueueRule : Obligations.EnqueueRule :=
  fun _ c => ⟨State.enqueueResult_terminated,
    fun ht hw => State.enqueueResult_refused ht (State.enqueueRefusal_notWellFormed hw),
    fun _ ht hw hq hle => State.enqueueResult_refused ht (State.enqueueRefusal_full hw hq hle),
    fun ht hw hroom => State.enqueueResult_accepted ht (State.enqueueRefusal_room hw hroom),
    rfl, fun hi => exec_enqueue hi c⟩

/-! ## WritePacket -/

section
variable {s : State} (hi : s.ingress = none) {rx : List Byte}
include hi

theorem exec_writePacket_terminated (ht : s.terminated = true) :
    exec (.writePacket rx) s = .next (s.answer (.bool false)) := by
  rw [exec, execWritePacket, betweenOperations_none hi]
  exact if_pos ht

theorem exec_writePacket_rejected (ht : s.terminated = false) {e : LogEntry}
    (h : headerError (Space.ofBytes rx) s = some e) :
    exec (.writePacket rx) s = .next { s with log := s.log ++ [e], results := s.results ++ [.bool false] } := by
  rw [exec, execWritePacket, betweenOperations_none hi, if_neg (by simp [ht]), h]
  rfl

theorem exec_writePacket_accepted (ht : s.terminated = false) (h : headerError (Space.ofBytes rx) s = none) :
    exec (.writePacket rx) s = .next (s.atChunk (Space.ofBytes rx) 12) := by
  rw [exec, execWritePacket, betweenOperations_none hi, if_neg (by simp [ht]), h]
  rfl

end

theorem headerError_short {rx : List Byte} (h : rx.length < 12) (s : State) :
    headerError (Space.ofBytes rx) s = some (.truncatedHeader rx.length) := by
  have hnone : parseHeader (Space.ofBytes rx) = none := by
    rw [parseHeader, Space.readBytes_beyond (by simpa using h)]
  rw [headerError, hnone]
  rfl

section
variable {rx : Space} {h : PacketHeader} {s : State} (hp : parseHeader rx = some h)
include hp

/-- The tests of R320 on a header that is there, in order. -/
theorem headerError_parsed : headerError rx s =
    if h.sourcePort ≠ s.remotePort ∨ h.destinationPort ≠ s.localPort then
      some (.portMismatch h.sourcePort h.destinationPort)
    else if h.verificationTag ≠ s.localVerificationTag then some (.tagMismatch h.verificationTag)
    else if s.params.verifyRxChecksum && !checksumOk rx h then some (.checksumMismatch h.checksum)
    else none := by
  rw [headerError, hp]

end

/-- The 12 bytes of a header are the images of its fields, the checksum's least significant byte first (45 R290). -/
theorem headerImage_ofBytes (s1 s0 d1 d0 t3 t2 t1 t0 c0 c1 c2 c3 : Byte) :
    headerImage ⟨ofBe2 s1 s0, ofBe2 d1 d0, ofBe4 t3 t2 t1 t0, ofBe4 c3 c2 c1 c0⟩ =
      [s1, s0, d1, d0, t3, t2, t1, t0, c0, c1, c2, c3] := by
  have hsum : le4 (ofBe4 c3 c2 c1 c0) = [c0, c1, c2, c3] := congrArg List.reverse (be4_ofBe4 c3 c2 c1 c0)
  rw [headerImage, be2_ofBe2, be2_ofBe2, be4_ofBe4, hsum]
  rfl

theorem headerFields_ofBytes (s1 s0 d1 d0 t3 t2 t1 t0 : Byte) (sum : U32) :
    headerFields ⟨ofBe2 s1 s0, ofBe2 d1 d0, ofBe4 t3 t2 t1 t0, sum⟩ = [s1, s0, d1, d0, t3, t2, t1, t0] := by
  rw [headerFields, be2_ofBe2, be2_ofBe2, be4_ofBe4]
  rfl

/-- Settles O25: the header parses to the fields its bytes are the images of, and each clause is one of its tests. -/
theorem headerAcceptance : Obligations.HeaderAcceptance := by
  intro s rx hi
  refine ⟨exec_writePacket_terminated hi, fun ht hshort => exec_writePacket_rejected hi ht (headerError_short hshort s),
    fun s1 s0 d1 d0 t3 t2 t1 t0 c0 c1 c2 c3 body ht hrx => ?_⟩
  rw [← headerImage_ofBytes] at hrx
  subst hrx
  generalize hh : (⟨ofBe2 s1 s0, ofBe2 d1 d0, ofBe4 t3 t2 t1 t0, ofBe4 c3 c2 c1 c0⟩ : PacketHeader) = h
  have hsource : ofBe2 s1 s0 = h.sourcePort := by rw [← hh]
  have hdest : ofBe2 d1 d0 = h.destinationPort := by rw [← hh]
  have htag : ofBe4 t3 t2 t1 t0 = h.verificationTag := by rw [← hh]
  have hsum : ofBe4 c3 c2 c1 c0 = h.checksum := by rw [← hh]
  have hbytes : [s1, s0, d1, d0, t3, t2, t1, t0, 0, 0, 0, 0] ++ body = headerFields h ++ (zeros 4 ++ body) := by
    rw [← hh, headerFields_ofBytes]
    rfl
  have herror := headerError_parsed (s := s) (parseHeader_ofBytes h body)
  have hok := checksumOk_ofBytes h body
  rw [hsource, hdest, htag, hsum, hbytes]
  refine ⟨fun hports => ?_, fun hs hd => ⟨fun ht' => ?_, fun ht' => ⟨fun hv hne => ?_, fun hgood => ?_⟩⟩⟩
  · exact exec_writePacket_rejected hi ht (herror.trans (if_pos hports))
  all_goals
    have hports : ¬ (h.sourcePort ≠ s.remotePort ∨ h.destinationPort ≠ s.localPort) := by simp [hs, hd]
    rw [if_neg hports] at herror
  · exact exec_writePacket_rejected hi ht (herror.trans (if_pos ht'))
  all_goals rw [if_neg (not_not_intro ht'), hok] at herror
  · exact exec_writePacket_rejected hi ht (herror.trans (if_pos (by simp [hv, hne])))
  · refine exec_writePacket_accepted hi ht (herror.trans (if_neg ?_))
    rcases hgood with hv | heq
    · simp [hv]
    · simp [heq]

/-! ## Timer fires -/

section
variable {s : State} (hi : s.ingress = none)
include hi

theorem fireTimer_idle {i : TimerId} (h : s.timer i = .idle) (own : AssocState) (handler : State → State) :
    fireTimer i own handler s = .next s := by
  rw [fireTimer_cases hi, if_pos (by rw [h]; rfl)]

theorem fireTimer_foreign {i : TimerId} {d : Nat} (h : s.timer i = .armed d) {own : AssocState} (ho : s.state ≠ own)
    (handler : State → State) :
    fireTimer i own handler s = .next ((s.setTimer i .idle).raise (.timerIgnored i s.state)) := by
  rw [fireTimer_cases hi, if_neg (by rw [h]; exact Bool.noConfusion), if_neg ho]

theorem fireTimer_own {i : TimerId} {d : Nat} (h : s.timer i = .armed d) {own : AssocState} (ho : s.state = own)
    (handler : State → State) : fireTimer i own handler s = .next (handler (s.setTimer i .idle)) := by
  rw [fireTimer_cases hi, if_neg (by rw [h]; exact Bool.noConfusion), if_pos ho]

end

theorem retry_below {i : TimerId} {c : Chunk} {s : State} (h : s.initRetransmissions < s.params.maxInitRetransmits) :
    retry i c s = (State.enqueue c { s with initRetransmissions := s.initRetransmissions + 1 }).arm i
      s.params.initRetransmitTimeout := if_pos h

theorem retry_ceiling {i : TimerId} {c : Chunk} {s : State} (h : s.params.maxInitRetransmits ≤ s.initRetransmissions) :
    retry i c s = { s with log := s.log ++ [.retryCeiling i], state := .closed } := by
  rw [retry, if_neg (Nat.not_lt.2 h)]
  rfl

/-- Settles O30: the fire empties the slot, then its handler is the retry with the INIT of the active open. -/
theorem initTimerFire : Obligations.InitTimerFire := by
  refine fun s d hi ha hwait => ⟨fun hlt => ⟨_, rfl, ?_⟩, fun hle => ?_⟩ <;>
    rw [exec, execTimerFireInit, fireTimer_own (i := .init) hi ha hwait]
  · rw [retry_below (s := s.setTimer .init .idle) hlt, State.arm_init, State.enqueue_timers]
    rfl
  · rw [retry_ceiling (s := s.setTimer .init .idle) hle]
    rfl

/-- Settles O31: the same retry with the COOKIE-ECHO of the stored cookie. -/
theorem cookieTimerFire : Obligations.CookieTimerFire := by
  refine fun s d hi ha hechoed => ⟨fun hlt => ⟨_, rfl, ?_⟩, fun hle => ?_⟩ <;>
    rw [exec, execTimerFireCookie, fireTimer_own (i := .cookie) hi ha hechoed]
  · rw [retry_below (s := s.setTimer .cookie .idle) hlt, State.arm_cookie, State.enqueue_timers]
    rfl
  · rw [retry_ceiling (s := s.setTimer .cookie .idle) hle]
    rfl

/-- Settles O33: the first and the second branch of a fire, for each slot. -/
theorem firesThatFindNothing : Obligations.FiresThatFindNothing :=
  fun _ hi => ⟨fun h => fireTimer_idle hi (i := .init) h _ _, fun h => fireTimer_idle hi (i := .cookie) h _ _,
    fun h => fireTimer_idle hi (i := .sack) h _ _, fun _ ha hne => fireTimer_foreign hi (i := .init) ha hne _,
    fun _ ha hne => fireTimer_foreign hi (i := .cookie) ha hne _,
    fun _ ha hne => fireTimer_foreign hi (i := .sack) ha hne _⟩

/-! ## After Abort -/

/-- Settles O29: a terminated block is quiet, closed, empty and its slots are idle, so every command takes its refusing
branch. -/
theorem terminatedCommands : Obligations.TerminatedCommands := by
  intro s hinv ht
  have hi := hinv.terminatedQuiet ht
  obtain ⟨hqueue, htimers⟩ := hinv.terminatedEmpty ht
  have hports := portsSetBeforeHandshake s
  have hbegun : ¬ (s.terminated = false ∧ s.state = .closed ∧ s.localVerificationTag = 0) := by simp [ht]
  obtain ⟨hinitFire, hcookieFire, hsackFire, -⟩ := firesThatFindNothing s hi
  have hpending : s.pendingData = false := by rw [hinv.pendingDataLevel, hqueue]; rfl
  refine ⟨fun p => ((hports p hi).2 hbegun).1, fun p => ((hports p hi).2 hbegun).2,
    exec_associate_ignored hi (.inl ht), exec_abort_terminated hi ht, fun c => ?_,
    fun rx => exec_writePacket_terminated hi ht, fun tx => readPacketNothing s tx hi (.inl ht),
    hinitFire (by rw [htimers]), hcookieFire (by rw [htimers]), hsackFire (by rw [htimers]),
    (statusCommands s hi).2.2 hinv ht, ?_⟩
  · rw [exec_enqueue hi, State.enqueueResult_terminated ht]
  · have hget := exec_getPendingData hi
    rw [hpending] at hget
    exact hget

/-! ## The check values of CRC32C -/

/-- Settles O11: five short strings, the kernel computing each checksum. -/
theorem checksumCheckValues : Obligations.ChecksumCheckValues := by
  unfold Obligations.ChecksumCheckValues
  decide +kernel

end Sys2Proof.Machine
end

section
/-! PROOFS. What every step keeps, first part: everything `Process` and `Acknowledge` do, and the conditions, one for
each thing an operation does, under which a relation between two states holds of every step. -/

namespace Sys2Proof.Machine

/-! ## What `Process` does, row by row -/

/-- The rows of the table of 47 R350, and the pairs without one. -/
inductive ProcessDoes (s : State) : State → Prop
  | ignored (t : Byte) : ProcessDoes s (s.raise (.stateViolation s.state t))
  | init (r : InitRec) : s.state = .closed → ProcessDoes s (processInit r s)
  | cookieEcho : s.state = .closed → ProcessDoes s (processCookieEcho s)
  | initAck (r : InitRec) (cookie : List Byte) : s.state = .cookieWait → ProcessDoes s (processInitAck r cookie s)
  | cookieAck : s.state = .cookieEchoed → ProcessDoes s (processCookieAck s)
  | data (flag : Byte) (r : DataRec) : s.state = .established → ProcessDoes s (processData flag r s)

theorem process_does (c : Chunk) (s : State) : ProcessDoes s (process c s) := by
  have hignored : ProcessDoes s (ignoreChunk c s) := .ignored _
  cases c
  case init f r life =>
    by_cases h : s.state = .closed
    · rw [process_init h]
      exact .init r h
    · rwa [process, if_neg h]
  case cookieEcho f x =>
    by_cases h : s.state = .closed
    · rw [process_cookieEcho h]
      exact .cookieEcho h
    · rwa [process, if_neg h]
  case initAck f r ck =>
    cases ck with
    | none => rwa [process_initAck_noCookie]
    | some cookie =>
      by_cases h : s.state = .cookieWait
      · rw [process_initAck h]
        exact .initAck r cookie h
      · rwa [process, if_neg h]
  case cookieAck f =>
    by_cases h : s.state = .cookieEchoed
    · rw [process_cookieAck h]
      exact .cookieAck h
    · rwa [process, if_neg h]
  case data f r =>
    by_cases h : s.state = .established
    · rw [process_data h]
      exact .data f r h
    · rwa [process, if_neg h]
  all_goals exact hignored

theorem processInit_eq (r : InitRec) (s : State) : ∃ tag tsn draws n c, tag ≠ 0 ∧ processInit r s =
    State.enqueue c { s with
      remoteVerificationTag := r.initiateTag
      localVerificationTag := tag
      localInitialTSN := tsn
      draws := draws
      freeDraws := n } := by
  obtain ⟨tag, tsn, draws, n, htag, hdraw⟩ :=
    State.drawLocalIdentity_eq { s with remoteVerificationTag := r.initiateTag }
  rw [processInit, hdraw]
  exact ⟨tag, tsn, draws, n, _, htag, rfl⟩

/-! ## `Acknowledge`: a walk reported, or only its end -/

namespace State

/-- `Acknowledge` either reports a walk or only ends (R362). -/
theorem acknowledge_cases (s : State) :
    (s.lastReceivedTSNValid = false ∧ s.receivedTSNs = [] ∧ s.acknowledge = s.endAcknowledge) ∨
    ∃ l ts, s.WalksFrom l ts ∧ s.acknowledge = (s.reportWalk (ackWalk l ts)).endAcknowledge := by
  cases hv : s.lastReceivedTSNValid with
  | true => exact .inr ⟨_, _, .inl ⟨hv, rfl, rfl⟩, acknowledge_walk (.inl ⟨hv, rfl, rfl⟩)⟩
  | false =>
    cases hm : s.receivedTSNs with
    | nil => exact .inl ⟨rfl, rfl, acknowledge_nothing hv hm⟩
    | cons l ts => exact .inr ⟨l, ts, .inr ⟨hv, hm⟩, acknowledge_walk (.inr ⟨hv, hm⟩)⟩

/-- What is reported lies at or below the point, so the rest of the multiset lies above it (R362, R363). -/
theorem acknowledged_above (k : AckWalk) (s : State) :
    ∀ t ∈ (s.acknowledged k).receivedTSNs, (s.acknowledged k).lastReceivedTSN.toNat < t.toNat := by
  intro t ht
  exact of_decide_eq_true (List.mem_filter.1 ht).2

end State

/-! ## Relations between the states before and after a step -/

/-- What a relation has to hold of, one field for each thing an operation does: then it holds of every step. Each field
asks for no more of the state than the relations need; one that names no condition holds in every state. -/
structure StepRelation (R : State → State → Prop) : Prop where
  trans {a b c : State} : R a b → R b c → R a c
  quiet (s : State) (lg : List LogEntry) (g : Option Ingress) (p : List PortCommand) : s.log <+: lg →
    R s { s with log := lg, ingress := g, port := p }
  emit (e : Event) (s : State) : R s (s.emit e)
  answer (r : Result) (s : State) : R s (s.answer r)
  buffer (sp : Space) (wp : Nat) (s : State) : R s { s with tx := sp, wp := wp }
  ports (l r : U16) (s : State) : s.portsWritable = true → R s { s with localPort := l, remotePort := r }
  peer (tag : U32) (cookie : List Byte) (n : Nat) (s : State) :
    R s { s with remoteVerificationTag := tag, peerCookie := cookie, initRetransmissions := n }
  identity (tag tsn : U32) (draws : List U32) (n : Nat) (s : State) : tag ≠ 0 →
    R s { s with localVerificationTag := tag, localInitialTSN := tsn, draws := draws, freeDraws := n }
  slotIdle (i : TimerId) (s : State) : R s (s.setTimer i .idle)
  armInit (d : Nat) (s : State) : s.state = .cookieWait → R s (s.setTimer .init (.armed d))
  armCookie (d : Nat) (s : State) : s.state = .cookieEchoed → R s (s.setTimer .cookie (.armed d))
  armSack (d : Nat) (s : State) : s.pendingAcknowledge = true → R s (s.setTimer .sack (.armed d))
  enqueue (c : Chunk) (s : State) : R s (s.enqueue c)
  sent (rest : List Chunk) (s : State) : s.queue ≠ [] → rest <:+ s.queue →
    R s { s with queue := rest, pendingData := if rest = [] then false else s.pendingData }
  enterWait (d : Nat) (s : State) : s.state = .closed → s.localVerificationTag ≠ 0 →
    R s { s.setTimer .init (.armed d) with state := .cookieWait }
  enterEchoed (d : Nat) (s : State) : s.state = .cookieWait → s.timers.init = .idle →
    R s { s.setTimer .cookie (.armed d) with state := .cookieEchoed }
  establish (s : State) : s.state = .closed ∨ s.state = .cookieEchoed ∧ s.timers.cookie = .idle →
    R s { s with state := .established }
  giveUp (s : State) : s.state = .cookieWait ∧ s.timers.init = .idle ∨ s.state = .cookieEchoed ∧ s.timers.cookie = .idle →
    R s { s with state := .closed }
  abort (s : State) : R s { s with
    timers := ⟨.idle, .idle, .idle⟩, queue := [], pendingData := false, pendingAcknowledge := false
    state := .closed, terminated := true }
  data (flag : Byte) (r : DataRec) (s : State) : s.state = .established → R s (processData flag r s)
  walked (l : U64) (ts : List U64) (s : State) : s.WalksFrom l ts → R s (s.acknowledged (ackWalk l ts))
  settled (s : State) : s.timers.sack = .idle →
    (s.lastReceivedTSNValid = true → ∀ t ∈ s.receivedTSNs, s.lastReceivedTSN.toNat < t.toNat) →
    R s { s with pendingAcknowledge := false }

namespace StepRelation

section
variable {R : State → State → Prop} (h : StepRelation R) {s : State}
include h

theorem raise (e : LogEntry) (s : State) : R s (s.raise e) := h.quiet s _ s.ingress s.port (List.prefix_append _ _)

theorem refl (s : State) : R s s := h.quiet s s.log s.ingress s.port List.prefix_rfl

theorem atIngress (g : Option Ingress) (s : State) : R s { s with ingress := g } :=
  h.quiet s s.log g s.port List.prefix_rfl

theorem arms {i : TimerId} {d : Nat} (hset : R s (s.setTimer i (.armed d))) : R s (s.arm i d) :=
  h.trans hset (h.emit (.timerArm i d) _)

theorem cancel (i : TimerId) (s : State) : R s (s.cancel i) := by
  rcases State.cancel_cases i s with ⟨-, hc⟩ | ⟨-, hc⟩ <;> rw [hc]
  · exact h.refl s
  · exact h.trans (h.slotIdle i s) (h.emit _ _)

theorem endsAcknowledge (habove : s.lastReceivedTSNValid = true →
    ∀ t ∈ s.receivedTSNs, s.lastReceivedTSN.toNat < t.toNat) : R s s.endAcknowledge :=
  h.trans (h.cancel .sack s) (h.settled _ (State.cancel_timer .sack s) (by simpa using habove))

theorem acknowledge (s : State) : R s s.acknowledge := by
  rcases s.acknowledge_cases with ⟨hv, -, hack⟩ | ⟨l, ts, hw, hack⟩ <;> rw [hack]
  · exact h.endsAcknowledge fun hv' => Bool.noConfusion (hv.symm.trans hv')
  · rw [State.reportWalk_eq]
    exact h.trans (h.trans (h.walked l ts s hw) (h.enqueue _ _))
      (h.endsAcknowledge fun _ => by simpa using State.acknowledged_above _ s)

/-- `Abort`: the three cancels emit, the rest is one update of the registers. -/
theorem aborts (s : State) : R s { ((s.cancel .init).cancel .cookie).cancel .sack with
    queue := [], pendingData := false, pendingAcknowledge := false, state := .closed, terminated := true } :=
  h.trans (h.trans (h.trans (h.cancel .init s) (h.cancel .cookie _)) (h.cancel .sack _))
    (by rw [State.cancel_all]; exact h.abort _)

theorem drawsIdentity (s : State) : R s s.drawLocalIdentity := by
  obtain ⟨tag, tsn, draws, n, htag, hdraw⟩ := s.drawLocalIdentity_eq
  rw [hdraw]
  exact h.identity tag tsn draws n s htag

theorem associate (hs : s.state = .closed) : R s s.associate := by
  have htag := s.drawLocalIdentity_tag_ne_zero
  have hclosed : s.drawLocalIdentity.state = .closed := by
    obtain ⟨tag, tsn, draws, n, -, hdraw⟩ := s.drawLocalIdentity_eq
    rw [hdraw, hs]
  rw [State.associate]
  generalize hd : s.drawLocalIdentity = d at *
  have hdrawn : R s d := hd ▸ h.drawsIdentity s
  have hqueued : R d (State.enqueue (buildInit d) { d with initRetransmissions := 0 }) :=
    h.trans (h.peer d.remoteVerificationTag d.peerCookie 0 d) (h.enqueue _ _)
  refine h.trans (h.trans hdrawn hqueued) (h.trans (h.emit (.timerArm .init _) _) (h.enterWait _ _ ?_ ?_))
  · exact (State.enqueue_state _ _).trans hclosed
  · exact (State.enqueue_localVerificationTag _ _).symm ▸ htag

theorem process (c : Chunk) (s : State) : R s (process c s) := by
  generalize hp : Machine.process c s = s'
  cases hp ▸ process_does c s
  case ignored t => exact h.raise _ s
  case init r hs =>
    exact h.trans (h.trans (h.peer r.initiateTag s.peerCookie s.initRetransmissions s) (h.drawsIdentity _)) (h.enqueue _ _)
  case cookieEcho hs =>
    exact h.trans (h.enqueue _ s) (h.establish _ (.inl ((State.enqueue_state _ s).trans hs)))
  case initAck r cookie hs =>
    have hstored : R s { s.cancel .init with
        remoteVerificationTag := r.initiateTag, peerCookie := cookie, initRetransmissions := 0 } :=
      h.trans (h.cancel .init s) (h.peer r.initiateTag cookie 0 _)
    refine h.trans (h.trans hstored (h.enqueue (.cookieEcho 0 cookie) _))
      (h.trans (h.emit (.timerArm .cookie _) _) (h.enterEchoed _ _ ?_ ?_))
    · exact (State.enqueue_state _ _).trans ((State.cancel_state .init s).trans hs)
    · exact (congrArg Timers.init (State.enqueue_timers _ _)).trans (State.cancel_timer .init s)
  case cookieAck hs =>
    refine h.trans (h.cancel .cookie s) (h.establish _ (.inr ⟨(State.cancel_state _ s).trans hs, ?_⟩))
    exact State.cancel_timer .cookie s
  case data flag r hs => exact h.data flag r s hs

/-- A retry (60 R421, R422) arms its slot in the state it finds, or gives up with the slot idle. -/
theorem retry {i : TimerId} (c : Chunk)
    (harm : ∀ d (t : State), t.state = s.state → R t (t.setTimer i (.armed d)))
    (hup : s.state = .cookieWait ∧ s.timers.init = .idle ∨ s.state = .cookieEchoed ∧ s.timers.cookie = .idle) :
    R s (Machine.retry i c s) := by
  rcases Nat.lt_or_ge s.initRetransmissions s.params.maxInitRetransmits with hlt | hge
  · rw [retry_below hlt]
    have hqueued : R s (State.enqueue c { s with initRetransmissions := s.initRetransmissions + 1 }) :=
      h.trans (h.peer s.remoteVerificationTag s.peerCookie (s.initRetransmissions + 1) s) (h.enqueue c _)
    exact h.trans hqueued (h.arms (harm _ _ (State.enqueue_state c _)))
  · rw [retry_ceiling hge]
    exact h.trans (h.raise (.retryCeiling i) s) (h.giveUp _ hup)

theorem command {s' : State} (hc : CommandDoes s s') : R s s' := by
  cases hc
  case same => exact h.refl s
  case logged e => exact h.raise e s
  case localPort p hw => exact h.ports p s.remotePort s hw
  case remotePort p hw => exact h.ports s.localPort p s hw
  case associated ht hs => exact h.associate hs
  case aborted ht => exact h.aborts s
  case enqueued c b => exact h.trans (h.enqueue c s) (h.answer _ _)
  case answered r => exact h.answer r s
  case rejected e => exact h.trans (h.raise e s) (h.answer _ _)
  case accepted rx ht hlen => exact h.atIngress _ s
  case noPacket tx => exact h.trans (h.buffer _ _ s) (h.answer _ _)
  case packet sp wp rest ht hq hsp hrest =>
    exact h.trans (h.trans (h.sent rest s hq hrest) (h.buffer sp wp _)) (h.answer _ _)
  case fireIgnored i => exact h.trans (h.slotIdle i s) (h.raise _ _)
  case initFire ha hs =>
    exact h.trans (h.slotIdle .init s) (h.retry _ (fun d t ht => h.armInit d t (ht.trans hs)) (.inl ⟨hs, rfl⟩))
  case cookieFire ha hs =>
    exact h.trans (h.slotIdle .cookie s) (h.retry _ (fun d t ht => h.armCookie d t (ht.trans hs)) (.inr ⟨hs, rfl⟩))
  case sackFire ha hs => exact h.trans (h.slotIdle .sack s) (h.acknowledge _)

theorem decideAck (s : State) : R s (decideAck s) := by
  cases hp : s.pendingAcknowledge with
  | false => rw [decideAck_nothingPending hp]; exact h.refl s
  | true =>
    by_cases h0 : s.pendingAcknowledgeTimeout = 0
    · rw [decideAck_dueNow hp h0]; exact h.acknowledge s
    by_cases ha : s.timers.sack = .idle
    · rw [decideAck_arms hp h0 ha]; exact h.arms (h.armSack _ s hp)
    · rw [decideAck_alreadyArmed hp h0 ha]; exact h.refl s

theorem chunkFailed (rx : Space) (pc next : Nat) (t : Byte) (s : State) : R s (s.chunkFailed rx pc next t) :=
  h.quiet s _ _ s.port (List.prefix_append _ _)

theorem step {s' : State} (hstep : Machine.step s = .next s') : R s s' := by
  cases step_does hstep
  case idle => exact h.refl s
  case command c rest i hi hp hd hexec =>
    exact h.trans (h.quiet s s.log s.ingress rest List.prefix_rfl)
      (h.command (exec_command_does (decodeCommand_code hd) hexec).2)
  case chunk rx pc t c hi hmore hdoes =>
    cases hdoes
    case unusable hc => exact h.quiet s _ _ s.port (List.prefix_append _ _)
    case failed t' hc => exact h.chunkFailed _ _ _ _ s
    case record r hc => exact h.trans (h.atIngress _ s) (h.process r _)
    case opened b tail hc hne ht => exact h.atIngress _ s
  case param rx pc q hi hdoes =>
    cases hdoes
    case failed t => exact h.chunkFailed _ _ _ _ s
    case record b r hclose hkind => exact h.trans (h.atIngress _ s) (h.process r _)
    case more b rd hkind hleft hmod hlt => exact h.atIngress _ s
  case packetEnd rx pc hi hend =>
    exact h.trans (h.trans (h.decideAck s) (h.answer (.bool true) _)) (h.atIngress none _)

end

end StepRelation

end Sys2Proof.Machine
end

section
/-! PROOFS. What every step keeps, second part: the history (10_state.md R30, R47, R48), the queue (46 R316), the
multiset (R45), the state register (00 R7) and the ports (R20), each as one relation between two states. -/

namespace Sys2Proof.Machine

/-! ## The history -/

/-- The walk moves the point forward or not at all, whatever the list. -/
theorem AckWalk.foldl_point_le (ts : List U64) : ∀ k : AckWalk, k.l.toNat ≤ (ts.foldl AckWalk.step k).l.toNat := by
  induction ts with
  | nil => exact fun k => Nat.le_refl _
  | cons t ts ih =>
    refine fun k => Nat.le_trans ?_ (ih (k.step t))
    unfold AckWalk.step
    split
    · split
      · exact Nat.le_refl _
      · split
        · dsimp only; omega
        · exact Nat.le_refl _
    · split
      · exact Nat.le_refl _
      · split <;> exact Nat.le_refl _

theorem ackWalk_point_le (l : U64) (ts : List U64) : l.toNat ≤ (ackWalk l ts).l.toNat := by
  rw [ackWalk, AckWalk.finish_l]
  exact AckWalk.foldl_point_le ts ⟨l, none, [], []⟩

namespace State

/-- `Enqueue` extends both streams at their end. -/
theorem enqueue_streams (c : Chunk) (s : State) : s.events <+: (s.enqueue c).events ∧ s.log <+: (s.enqueue c).log := by
  unfold enqueue
  rcases enqueueResult_cases c s with ⟨-, h⟩ | ⟨-, w, -, h⟩ | ⟨-, -, h⟩ <;> rw [h]
  · exact ⟨List.prefix_rfl, List.prefix_rfl⟩
  · exact ⟨List.prefix_rfl, List.prefix_append _ _⟩
  · unfold append
    split
    · exact ⟨List.prefix_append _ _, List.prefix_rfl⟩
    · exact ⟨List.prefix_rfl, List.prefix_rfl⟩

end State

/-- The registers the history is about. -/
def State.historyPart (s : State) :
    Params × TsnWrapper × Bool × Bool × U64 × List Event × List LogEntry × List Result :=
  (s.params, s.wrapper, s.terminated, s.lastReceivedTSNValid, s.lastReceivedTSN, s.events, s.log, s.results)

/-- What no step takes back. -/
structure History (s s' : State) : Prop where
  params : s'.params = s.params
  tsnBits : s'.wrapper.tsnBits = s.wrapper.tsnBits
  extBits : s'.wrapper.extBits = s.wrapper.extBits
  window : s'.wrapper.outOfOrderWindow = s.wrapper.outOfOrderWindow
  latch : s.terminated = true → s'.terminated = true
  events : s.events <+: s'.events
  log : s.log <+: s'.log
  results : s.results <+: s'.results
  mark : s.wrapper.regs.maxExtSeqNum.toNat ≤ s'.wrapper.regs.maxExtSeqNum.toNat
  point : s.lastReceivedTSNValid = true →
    s'.lastReceivedTSNValid = true ∧ s.lastReceivedTSN.toNat ≤ s'.lastReceivedTSN.toNat

namespace History

theorem trans {a b c : State} (h : History a b) (h' : History b c) : History a c where
  params := h'.params.trans h.params
  tsnBits := h'.tsnBits.trans h.tsnBits
  extBits := h'.extBits.trans h.extBits
  window := h'.window.trans h.window
  latch ht := h'.latch (h.latch ht)
  events := h.events.trans h'.events
  log := h.log.trans h'.log
  results := h.results.trans h'.results
  mark := h.mark.trans h'.mark
  point hv := ⟨(h'.point (h.point hv).1).1, (h.point hv).2.trans (h'.point (h.point hv).1).2⟩

/-- A step that leaves the wrapper, the point and the latch alone and extends the three streams. -/
theorem of_streams {s s' : State} (hp : s'.params = s.params) (hw : s'.wrapper = s.wrapper)
    (ht : s.terminated = true → s'.terminated = true) (hv : s'.lastReceivedTSNValid = s.lastReceivedTSNValid)
    (hl : s'.lastReceivedTSN = s.lastReceivedTSN) (he : s.events <+: s'.events) (hlog : s.log <+: s'.log)
    (hr : s.results <+: s'.results) : History s s' where
  params := hp
  tsnBits := by rw [hw]
  extBits := by rw [hw]
  window := by rw [hw]
  latch := ht
  events := he
  log := hlog
  results := hr
  mark := by rw [hw]
  point h := ⟨hv.trans h, by rw [hl]⟩

theorem of_same {s s' : State} (h : s'.historyPart = s.historyPart) : History s s' := by
  simp only [State.historyPart, Prod.mk.injEq] at h
  obtain ⟨hp, hw, ht, hv, hl, he, hlog, hr⟩ := h
  exact of_streams hp hw (ht ▸ id) hv hl (he ▸ List.prefix_rfl) (hlog ▸ List.prefix_rfl) (hr ▸ List.prefix_rfl)

theorem enqueue (c : Chunk) (s : State) : History s (s.enqueue c) := by
  obtain ⟨he, hl⟩ := State.enqueue_streams c s
  exact of_streams (by simp) (by simp) (by simp) (by simp) (by simp) he hl (by simp)

theorem walked {s : State} {l : U64} {ts : List U64} (h : s.WalksFrom l ts) :
    History s (s.acknowledged (ackWalk l ts)) := by
  refine ⟨rfl, rfl, rfl, rfl, id, List.prefix_rfl, List.prefix_append _ _, List.prefix_rfl, Nat.le_refl _,
    fun hv => ⟨rfl, ?_⟩⟩
  rcases h with ⟨-, rfl, -⟩ | ⟨hv', -⟩
  · exact ackWalk_point_le _ _
  · exact Bool.noConfusion (hv.symm.trans hv')

theorem processData (flag : Byte) (r : DataRec) (s : State) : History s (processData flag r s) where
  params := rfl
  tsnBits := rfl
  extBits := rfl
  window := rfl
  latch := id
  events := List.prefix_append _ _
  log := List.prefix_rfl
  results := List.prefix_rfl
  mark := SeqWrapper.wrap_mark_le _ _ _
  point hv := ⟨hv, Nat.le_refl _⟩

theorem stepRelation : StepRelation History where
  trans := trans
  quiet _ _ _ _ hlog := of_streams rfl rfl id rfl rfl List.prefix_rfl hlog List.prefix_rfl
  emit _ _ := of_streams rfl rfl id rfl rfl (List.prefix_append _ _) List.prefix_rfl List.prefix_rfl
  answer _ _ := of_streams rfl rfl id rfl rfl List.prefix_rfl List.prefix_rfl (List.prefix_append _ _)
  buffer _ _ _ := of_same rfl
  ports _ _ _ _ := of_same rfl
  peer _ _ _ _ := of_same rfl
  identity _ _ _ _ _ _ := of_same rfl
  slotIdle i _ := by cases i <;> exact of_same rfl
  armInit _ _ _ := of_same rfl
  armCookie _ _ _ := of_same rfl
  armSack _ _ _ := of_same rfl
  enqueue := enqueue
  sent _ _ _ _ := of_same rfl
  enterWait _ _ _ _ := of_same rfl
  enterEchoed _ _ _ _ := of_same rfl
  establish _ _ := of_same rfl
  giveUp _ _ := of_same rfl
  abort _ := of_streams rfl rfl (fun _ => rfl) rfl rfl List.prefix_rfl List.prefix_rfl List.prefix_rfl
  data flag r s _ := processData flag r s
  walked _ _ _ := walked
  settled _ _ _ := of_same rfl

end History

/-- Settles O59: the history is kept by every operation of a step. -/
theorem stepKeepsHistory : Obligations.StepKeepsHistory := by
  intro s s' hstep
  obtain ⟨hparams, htsn, hext, hwin, hlatch, hevents, hlog, hresults, hmark, hpoint⟩ := History.stepRelation.step hstep
  exact ⟨hparams, htsn, hext, hwin, hlatch, hevents, hlog, hresults, hmark, hpoint⟩

/-! ## The queue -/

namespace QueueInv

theorem of_same {s s' : State} (hq : s'.queue = s.queue) (hp : s'.params = s.params) (h : QueueInv s) :
    QueueInv s' where
  wellFormed := by simpa only [hq, hp] using h.wellFormed
  bounded := by simpa only [hq, hp] using h.bounded

theorem enqueue {s : State} (c : Chunk) (h : QueueInv s) : QueueInv (s.enqueue c) := by
  rcases State.enqueue_queue_cases c s with ⟨hq, -⟩ | ⟨hwf, hroom, -, hq, -⟩
  · exact of_same hq (State.enqueue_params c s) h
  · refine ⟨fun x hx => ?_, fun m hm => ?_⟩
    · rw [hq, List.mem_append, List.mem_singleton] at hx
      rw [State.enqueue_params]
      rcases hx with hx | rfl
      · exact h.wellFormed x hx
      · exact hwf
    · rw [hq, List.length_append, List.length_singleton]
      exact hroom m (State.enqueue_params c s ▸ hm)

theorem stepRelation : StepRelation fun s s' => QueueInv s → QueueInv s' where
  trans h h' hs := h' (h hs)
  quiet _ _ _ _ _ := of_same rfl rfl
  emit _ _ := of_same rfl rfl
  answer _ _ := of_same rfl rfl
  buffer _ _ _ := of_same rfl rfl
  ports _ _ _ _ := of_same rfl rfl
  peer _ _ _ _ := of_same rfl rfl
  identity _ _ _ _ _ _ := of_same rfl rfl
  slotIdle i _ := by cases i <;> exact of_same rfl rfl
  armInit _ _ _ := of_same rfl rfl
  armCookie _ _ _ := of_same rfl rfl
  armSack _ _ _ := of_same rfl rfl
  enqueue c _ := enqueue c
  sent _ _ _ hrest h := ⟨fun c hc => h.wellFormed c (hrest.subset hc),
    fun m hm => hrest.length_le.trans (h.bounded m hm)⟩
  enterWait _ _ _ _ := of_same rfl rfl
  enterEchoed _ _ _ _ := of_same rfl rfl
  establish _ _ := of_same rfl rfl
  giveUp _ _ := of_same rfl rfl
  abort _ _ := ⟨fun _ hc => absurd hc List.not_mem_nil, fun _ _ => Nat.zero_le _⟩
  data _ _ _ _ := of_same rfl rfl
  walked _ _ _ _ := of_same rfl rfl
  settled _ _ _ := of_same rfl rfl

end QueueInv

/-! ## The multiset -/

namespace TrackerInv

theorem of_same {s s' : State} (hm : s'.receivedTSNs = s.receivedTSNs) (h : TrackerInv s) : TrackerInv s' := by
  rwa [TrackerInv, hm]

theorem stepRelation : StepRelation fun s s' => TrackerInv s → TrackerInv s' where
  trans h h' hs := h' (h hs)
  quiet _ _ _ _ _ := of_same rfl
  emit _ _ := of_same rfl
  answer _ _ := of_same rfl
  buffer _ _ _ := of_same rfl
  ports _ _ _ _ := of_same rfl
  peer _ _ _ _ := of_same rfl
  identity _ _ _ _ _ _ := of_same rfl
  slotIdle i _ := by cases i <;> exact of_same rfl
  armInit _ _ _ := of_same rfl
  armCookie _ _ _ := of_same rfl
  armSack _ _ _ := of_same rfl
  enqueue c s := of_same (State.enqueue_receivedTSNs c s)
  sent _ _ _ _ := of_same rfl
  enterWait _ _ _ _ := of_same rfl
  enterEchoed _ _ _ _ := of_same rfl
  establish _ _ := of_same rfl
  giveUp _ _ := of_same rfl
  abort _ := of_same rfl
  data _ _ _ _ h := insertTSN_ascending _ h
  walked _ _ _ _ h := h.filter _
  settled _ _ _ := of_same rfl

end TrackerInv

/-! ## The state register -/

namespace LegalState

theorem of_same {s s' : State} (hs : s'.state = s.state) (h : LegalState s) : LegalState s' := by
  rwa [LegalState, hs]

/-- The four states that are written. -/
theorem of_written {s : State} (h : s.state ∈ [.closed, .cookieWait, .cookieEchoed, .established]) : LegalState s := by
  simp only [List.mem_cons, List.not_mem_nil, or_false] at h
  rcases h with h | h | h | h <;> rw [LegalState, h] <;> decide

theorem stepRelation : StepRelation fun s s' => LegalState s → LegalState s' where
  trans h h' hs := h' (h hs)
  quiet _ _ _ _ _ := of_same rfl
  emit _ _ := of_same rfl
  answer _ _ := of_same rfl
  buffer _ _ _ := of_same rfl
  ports _ _ _ _ := of_same rfl
  peer _ _ _ _ := of_same rfl
  identity _ _ _ _ _ _ := of_same rfl
  slotIdle i _ := by cases i <;> exact of_same rfl
  armInit _ _ _ := of_same rfl
  armCookie _ _ _ := of_same rfl
  armSack _ _ _ := of_same rfl
  enqueue c s := of_same (State.enqueue_state c s)
  sent _ _ _ _ := of_same rfl
  enterWait _ _ _ _ _ := of_written (by simp)
  enterEchoed _ _ _ _ _ := of_written (by simp)
  establish _ _ _ := of_written (by simp)
  giveUp _ _ _ := of_written (by simp)
  abort _ _ := of_written (by simp)
  data _ _ _ _ := of_same rfl
  walked _ _ _ _ := of_same rfl
  settled _ _ _ := of_same rfl

end LegalState

/-- Settles O57: the three relations, each kept by every operation of a step. -/
theorem stepKeepsQueueTrackerState : Obligations.StepKeepsQueueTrackerState := fun _ _ hstep =>
  ⟨QueueInv.stepRelation.step hstep, TrackerInv.stepRelation.step hstep, LegalState.stepRelation.step hstep⟩

/-! ## The ports -/

/-- The ports stay as they are from the time the handshake has begun. -/
def PortsKept (s s' : State) : Prop :=
  ActiveOpenTagged s → ActiveOpenTagged s' ∧
    (HandshakeBegun s → HandshakeBegun s' ∧ s'.localPort = s.localPort ∧ s'.remotePort = s.remotePort)

namespace PortsKept

theorem trans {a b c : State} (h : PortsKept a b) (h' : PortsKept b c) : PortsKept a c := by
  intro htag
  obtain ⟨htag', hkeep⟩ := h htag
  obtain ⟨htag'', hkeep'⟩ := h' htag'
  refine ⟨htag'', fun hbegun => ?_⟩
  obtain ⟨hbegun', hl, hr⟩ := hkeep hbegun
  obtain ⟨hbegun'', hl', hr'⟩ := hkeep' hbegun'
  exact ⟨hbegun'', hl'.trans hl, hr'.trans hr⟩

/-- The registers the ports depend on. -/
def part (s : State) : U16 × U16 × Bool × AssocState × U32 :=
  (s.localPort, s.remotePort, s.terminated, s.state, s.localVerificationTag)

theorem of_same {s s' : State} (h : part s' = part s) : PortsKept s s' := by
  simp only [part, Prod.mk.injEq] at h
  obtain ⟨hl, hr, ht, hs, htag⟩ := h
  rw [PortsKept, ActiveOpenTagged, ActiveOpenTagged, HandshakeBegun, HandshakeBegun, ht, hs, htag]
  exact fun h => ⟨h, fun hb => ⟨hb, hl, hr⟩⟩

/-- With a local tag the ports are kept whatever state is entered. -/
theorem of_tag {s s' : State} (hl : s'.localPort = s.localPort) (hr : s'.remotePort = s.remotePort)
    (htag : ActiveOpenTagged s → s'.localVerificationTag ≠ 0) : PortsKept s s' :=
  fun h => ⟨fun _ => htag h, fun _ => ⟨.inr (.inr (htag h)), hl, hr⟩⟩

theorem stepRelation : StepRelation PortsKept where
  trans := trans
  quiet _ _ _ _ _ := of_same rfl
  emit _ _ := of_same rfl
  answer _ _ := of_same rfl
  buffer _ _ _ := of_same rfl
  ports l r s hw := by
    obtain ⟨ht, hs, htag⟩ := State.portsWritable_iff.1 hw
    refine fun hopen => ⟨hopen, fun hbegun => ?_⟩
    simp [HandshakeBegun, ht, hs, htag] at hbegun
  peer _ _ _ _ := of_same rfl
  identity _ _ _ _ _ htag := of_tag rfl rfl fun _ => htag
  slotIdle i _ := by cases i <;> exact of_same rfl
  armInit _ _ _ := of_same rfl
  armCookie _ _ _ := of_same rfl
  armSack _ _ _ := of_same rfl
  enqueue c s := of_same (by simp [part])
  sent _ _ _ _ := of_same rfl
  enterWait _ _ _ htag := of_tag rfl rfl fun _ => htag
  enterEchoed _ _ hs _ := of_tag rfl rfl fun h => h (.inl hs)
  establish _ _ _ := ⟨fun h => h.elim AssocState.noConfusion AssocState.noConfusion,
    fun _ => ⟨.inr (.inl AssocState.noConfusion), rfl, rfl⟩⟩
  giveUp _ hs := of_tag rfl rfl fun h => h (hs.imp And.left And.left)
  abort _ _ := ⟨fun h => h.elim AssocState.noConfusion AssocState.noConfusion, fun _ => ⟨.inl rfl, rfl, rfl⟩⟩
  data _ _ _ _ := of_same rfl
  walked _ _ _ _ := of_same rfl
  settled _ _ _ := of_same rfl

end PortsKept

/-- Settles O58: a step either leaves what the ports depend on alone or has a local tag. -/
theorem portsImmutableOnceBegun : Obligations.PortsImmutableOnceBegun := fun _ _ htag hstep =>
  PortsKept.stepRelation.step hstep htag

end Sys2Proof.Machine
end

section
/-! PROOFS. What every step keeps, third part: the invariants of reset and of every operation (10_state.md R59). Before
Abort they are four relations, each kept by every operation; the step that terminates the block is an Abort; and what
the invariants speak of is frozen after it. -/

namespace Sys2Proof.Machine

/-! ## R59 (a): the level of pendingData -/

/-- R59 (a). -/
def PendingLevel (s : State) : Prop := s.pendingData = !s.queue.isEmpty

namespace PendingLevel

theorem of_same {s s' : State} (hp : s'.pendingData = s.pendingData) (hq : s'.queue = s.queue) (h : PendingLevel s) :
    PendingLevel s' := by
  rwa [PendingLevel, hp, hq]

theorem enqueue {s : State} (c : Chunk) (h : PendingLevel s) : PendingLevel (s.enqueue c) := by
  rcases State.enqueue_queue_cases c s with ⟨hq, hp⟩ | ⟨-, -, -, hq, hsome, hnone⟩
  · exact of_same hp hq h
  · have hset : (s.enqueue c).pendingData = true := by
      by_cases he : s.queue = []
      · exact hnone he
      · rw [hsome he, h]
        simpa using he
    rw [PendingLevel, hset, hq]
    simp

theorem sent {s : State} (rest : List Chunk) (hne : s.queue ≠ []) (h : PendingLevel s) : PendingLevel { s with
    queue := rest, pendingData := if rest = [] then false else s.pendingData } := by
  have hset : s.pendingData = true := by
    rw [h]
    simpa using hne
  by_cases hr : rest = [] <;> simp [PendingLevel, hr, hset]

theorem stepRelation : StepRelation fun s s' => PendingLevel s → PendingLevel s' where
  trans h h' hs := h' (h hs)
  quiet _ _ _ _ _ := of_same rfl rfl
  emit _ _ := of_same rfl rfl
  answer _ _ := of_same rfl rfl
  buffer _ _ _ := of_same rfl rfl
  ports _ _ _ _ := of_same rfl rfl
  peer _ _ _ _ := of_same rfl rfl
  identity _ _ _ _ _ _ := of_same rfl rfl
  slotIdle i _ := by cases i <;> exact of_same rfl rfl
  armInit _ _ _ := of_same rfl rfl
  armCookie _ _ _ := of_same rfl rfl
  armSack _ _ _ := of_same rfl rfl
  enqueue c _ := enqueue c
  sent rest _ hne _ := sent rest hne
  enterWait _ _ _ _ := of_same rfl rfl
  enterEchoed _ _ _ _ := of_same rfl rfl
  establish _ _ := of_same rfl rfl
  giveUp _ _ := of_same rfl rfl
  abort _ _ := rfl
  data _ _ _ _ := of_same rfl rfl
  walked _ _ _ _ := of_same rfl rfl
  settled _ _ _ := of_same rfl rfl

end PendingLevel

/-! ## R59 (b), (d): each timer and the pending acknowledgement in their own states -/

/-- R59 (b) and (d), with the state of a pending acknowledgement. -/
structure TimersOwn (s : State) : Prop where
  sackPending : s.timers.sack.isArmed = true → s.pendingAcknowledge = true
  initState : s.timers.init.isArmed = true → s.state = .cookieWait
  cookieState : s.timers.cookie.isArmed = true → s.state = .cookieEchoed
  pendingState : s.pendingAcknowledge = true → s.state = .established

namespace TimersOwn

theorem of_same {s s' : State} (ht : s'.timers = s.timers) (hp : s'.pendingAcknowledge = s.pendingAcknowledge)
    (hs : s'.state = s.state) (h : TimersOwn s) : TimersOwn s' where
  sackPending := by simpa only [ht, hp] using h.sackPending
  initState := by simpa only [ht, hs] using h.initState
  cookieState := by simpa only [ht, hs] using h.cookieState
  pendingState := by simpa only [hp, hs] using h.pendingState

/-- Entering a state from another than Established: nothing is pending, so only the other two slots count. -/
theorem enter {s s' : State} (h : TimersOwn s) (hne : s.state ≠ .established) (hsack : s'.timers.sack = s.timers.sack)
    (hp : s'.pendingAcknowledge = s.pendingAcknowledge)
    (hinit : s'.timers.init.isArmed = true → s'.state = .cookieWait)
    (hcookie : s'.timers.cookie.isArmed = true → s'.state = .cookieEchoed) : TimersOwn s' where
  sackPending := by simpa only [hsack, hp] using h.sackPending
  initState := hinit
  cookieState := hcookie
  pendingState ha := absurd (h.pendingState (hp ▸ ha)) hne

theorem slotIdle (i : TimerId) {s : State} (h : TimersOwn s) : TimersOwn (s.setTimer i .idle) := by
  cases i
  case init => exact ⟨h.sackPending, nofun, h.cookieState, h.pendingState⟩
  case cookie => exact ⟨h.sackPending, h.initState, nofun, h.pendingState⟩
  case sack => exact ⟨nofun, h.initState, h.cookieState, h.pendingState⟩

theorem cookie_not_armed {s : State} (h : TimersOwn s) (hne : s.state ≠ .cookieEchoed) :
    ¬ s.timers.cookie.isArmed = true :=
  mt h.cookieState hne

/-- A state is left for Established or Closed with its own slot idle, so all slots but the SACK timer's are. -/
theorem leave {s s' : State} (h : TimersOwn s) (hne : s.state ≠ .established) (ht : s'.timers = s.timers)
    (hp : s'.pendingAcknowledge = s.pendingAcknowledge)
    (hinit : s.state = .cookieWait → s.timers.init = .idle)
    (hcookie : s.state = .cookieEchoed → s.timers.cookie = .idle) : TimersOwn s' :=
  h.enter hne (by rw [ht]) hp
    (fun ha => by rw [ht, hinit (h.initState (ht ▸ ha))] at ha; cases ha)
    (fun ha => by rw [ht, hcookie (h.cookieState (ht ▸ ha))] at ha; cases ha)

theorem stepRelation : StepRelation fun s s' => TimersOwn s → TimersOwn s' where
  trans h h' hs := h' (h hs)
  quiet _ _ _ _ _ := of_same rfl rfl rfl
  emit _ _ := of_same rfl rfl rfl
  answer _ _ := of_same rfl rfl rfl
  buffer _ _ _ := of_same rfl rfl rfl
  ports _ _ _ _ := of_same rfl rfl rfl
  peer _ _ _ _ := of_same rfl rfl rfl
  identity _ _ _ _ _ _ := of_same rfl rfl rfl
  slotIdle i _ := slotIdle i
  armInit _ _ hs h := ⟨h.sackPending, fun _ => hs, h.cookieState, h.pendingState⟩
  armCookie _ _ hs h := ⟨h.sackPending, h.initState, fun _ => hs, h.pendingState⟩
  armSack _ _ hp h := ⟨fun _ => hp, h.initState, h.cookieState, h.pendingState⟩
  enqueue c s := of_same (State.enqueue_timers c s) (State.enqueue_pendingAcknowledge c s) (State.enqueue_state c s)
  sent _ _ _ _ := of_same rfl rfl rfl
  enterWait _ s hs _ h := h.enter (by simp [hs]) rfl rfl (fun _ => rfl)
    fun ha => absurd ha (h.cookie_not_armed (by simp [hs]))
  enterEchoed _ s hs hidle h := h.enter (by simp [hs]) rfl rfl
    (fun ha => absurd (show s.timers.init.isArmed = true from ha) (by simp [hidle, Slot.isArmed])) fun _ => rfl
  establish s hs h := by
    rcases hs with hs | ⟨hs, hidle⟩
    · exact h.leave (by simp [hs]) rfl rfl (by simp [hs]) (by simp [hs])
    · exact h.leave (by simp [hs]) rfl rfl (by simp [hs]) fun _ => hidle
  giveUp s hs h := by
    rcases hs with ⟨hs, hidle⟩ | ⟨hs, hidle⟩
    · exact h.leave (by simp [hs]) rfl rfl (fun _ => hidle) (by simp [hs])
    · exact h.leave (by simp [hs]) rfl rfl (by simp [hs]) fun _ => hidle
  abort _ _ := ⟨nofun, nofun, nofun, nofun⟩
  data _ _ _ hs h := ⟨fun _ => rfl, h.initState, h.cookieState, fun _ => hs⟩
  walked _ _ _ _ := of_same rfl rfl rfl
  settled s hidle _ h :=
    ⟨fun ha => absurd ha (by simp [hidle, Slot.isArmed]), h.initState, h.cookieState, nofun⟩

end TimersOwn

/-! ## R59 (f): the wrapper's equation -/

/-- R59 (f), with the widths 41 R160 takes. -/
structure WrapperAgrees (s : State) : Prop where
  mark : s.wrapper.regs.maxExtSeqNum.toNat =
    s.wrapper.regs.cycles.toNat * 2 ^ s.wrapper.tsnBits + s.wrapper.regs.maxSeqNum.toNat
  widths : 1 ≤ s.wrapper.tsnBits ∧ s.wrapper.tsnBits < s.wrapper.extBits

namespace WrapperAgrees

theorem of_same {s s' : State} (hw : s'.wrapper = s.wrapper) (h : WrapperAgrees s) : WrapperAgrees s' where
  mark := by rw [hw]; exact h.mark
  widths := by rw [hw]; exact h.widths

theorem stepRelation : StepRelation fun s s' => WrapperAgrees s → WrapperAgrees s' where
  trans h h' hs := h' (h hs)
  quiet _ _ _ _ _ := of_same rfl
  emit _ _ := of_same rfl
  answer _ _ := of_same rfl
  buffer _ _ _ := of_same rfl
  ports _ _ _ _ := of_same rfl
  peer _ _ _ _ := of_same rfl
  identity _ _ _ _ _ _ := of_same rfl
  slotIdle i _ := by cases i <;> exact of_same rfl
  armInit _ _ _ := of_same rfl
  armCookie _ _ _ := of_same rfl
  armSack _ _ _ := of_same rfl
  enqueue c s := of_same (State.enqueue_wrapper c s)
  sent _ _ _ _ := of_same rfl
  enterWait _ _ _ _ := of_same rfl
  enterEchoed _ _ _ _ := of_same rfl
  establish _ _ := of_same rfl
  giveUp _ _ := of_same rfl
  abort _ := of_same rfl
  data _ _ _ _ h := ⟨SeqWrapper.wrap_mark h.widths.2 _ _ _ h.mark, h.widths⟩
  walked _ _ _ _ := of_same rfl
  settled _ _ _ := of_same rfl

end WrapperAgrees

/-! ## R59 (c): the multiset above the point, before Abort -/

/-- R59 (c) of a block that is not terminated. -/
def AboveUnlessTerminated (s : State) : Prop := s.terminated = false → TrackerAbovePoint s

namespace AboveUnlessTerminated

/-- The registers clause (c) speaks of. -/
def part (s : State) : Bool × Bool × Bool × U64 × List U64 :=
  (s.terminated, s.pendingAcknowledge, s.lastReceivedTSNValid, s.lastReceivedTSN, s.receivedTSNs)

theorem of_same {s s' : State} (hpart : part s' = part s) (h : AboveUnlessTerminated s) : AboveUnlessTerminated s' := by
  simp only [part, Prod.mk.injEq] at hpart
  obtain ⟨ht, hp, hv, hl, hm⟩ := hpart
  rwa [AboveUnlessTerminated, TrackerAbovePoint, ht, hp, hv, hl, hm]

theorem stepRelation : StepRelation fun s s' => AboveUnlessTerminated s → AboveUnlessTerminated s' where
  trans h h' hs := h' (h hs)
  quiet _ _ _ _ _ := of_same rfl
  emit _ _ := of_same rfl
  answer _ _ := of_same rfl
  buffer _ _ _ := of_same rfl
  ports _ _ _ _ := of_same rfl
  peer _ _ _ _ := of_same rfl
  identity _ _ _ _ _ _ := of_same rfl
  slotIdle i _ := by cases i <;> exact of_same rfl
  armInit _ _ _ := of_same rfl
  armCookie _ _ _ := of_same rfl
  armSack _ _ _ := of_same rfl
  enqueue c s := of_same (by simp [part])
  sent _ _ _ _ := of_same rfl
  enterWait _ _ _ _ := of_same rfl
  enterEchoed _ _ _ _ := of_same rfl
  establish _ _ := of_same rfl
  giveUp _ _ := of_same rfl
  abort _ _ := nofun
  data _ _ _ _ _ _ _ := nofun
  walked _ _ s _ _ _ _ _ := State.acknowledged_above _ s
  settled _ _ habove _ _ hv _ := habove hv

end AboveUnlessTerminated

/-! ## The step that terminates, and the block after it -/

/-- What `Abort` leaves of the registers R59 speaks of (46 R314, 10 R45). -/
structure Aborted (s s' : State) : Prop where
  queue : s'.queue = []
  timers : s'.timers = ⟨.idle, .idle, .idle⟩
  closed : s'.state = .closed
  ingress : s'.ingress = none
  pending : s'.pendingAcknowledge = false
  valid : s'.lastReceivedTSNValid = s.lastReceivedTSNValid
  point : s'.lastReceivedTSN = s.lastReceivedTSN
  tracker : s'.receivedTSNs = s.receivedTSNs

theorem retry_keeps (i : TimerId) (c : Chunk) (s : State) : (retry i c s).terminated = s.terminated ∧
    (retry i c s).ingress = s.ingress ∧ (retry i c s).tx = s.tx := by
  rcases Nat.lt_or_ge s.initRetransmissions s.params.maxInitRetransmits with hlt | hge
  · rw [retry_below hlt]
    simp
  · rw [retry_ceiling hge]
    exact ⟨rfl, rfl, rfl⟩

/-- No command but `Abort` terminates the block. -/
theorem CommandDoes.terminates {s s' : State} (hc : CommandDoes s s') (hi : s.ingress = none)
    (ht : s.terminated = false) (ht' : s'.terminated = true) : Aborted s s' := by
  have hkeeps : s'.terminated = s.terminated → Aborted s s' := fun he =>
    Bool.noConfusion (ht.symm.trans (he.symm.trans ht'))
  cases hc
  case aborted _ =>
    rw [State.cancel_all]
    exact ⟨rfl, rfl, rfl, hi, rfl, rfl, rfl, rfl⟩
  case associated => exact hkeeps (by simp [State.associate])
  case enqueued c b => exact hkeeps (State.enqueue_terminated c s)
  case fireIgnored i => exact hkeeps (State.setTimer_terminated i .idle s)
  case initFire => exact hkeeps (retry_keeps _ _ _).1
  case cookieFire => exact hkeeps (retry_keeps _ _ _).1
  case sackFire => exact hkeeps (State.acknowledge_terminated _)
  all_goals exact hkeeps rfl

theorem step_terminates {s s' : State} (hstep : step s = .next s') (ht : s.terminated = false)
    (ht' : s'.terminated = true) : Aborted s s' := by
  have hkeeps : s'.terminated = s.terminated → Aborted s s' := fun he =>
    Bool.noConfusion (ht.symm.trans (he.symm.trans ht'))
  cases step_does hstep
  case idle => exact hkeeps rfl
  case command c rest i hi hp hd hexec =>
    obtain ⟨hq, htm, hs, hg, hpa, hv, hl, hm⟩ :=
      (exec_command_does (decodeCommand_code hd) hexec).2.terminates hi ht ht'
    exact ⟨hq, htm, hs, hg, hpa, hv, hl, hm⟩
  case chunk rx pc t c hi hmore hdoes =>
    cases hdoes
    case record r hc => exact hkeeps (process_terminated r _)
    all_goals exact hkeeps rfl
  case param rx pc q hi hdoes =>
    cases hdoes
    case record b r hclose hkind => exact hkeeps (process_terminated r _)
    all_goals exact hkeeps rfl
  case packetEnd rx pc hi hend =>
    obtain ⟨l, v, m, t, a, pd, q, ev, lg, hfinish⟩ := finishPacket_frame s
    exact hkeeps (by rw [hfinish])

/-- The registers R59 speaks of. -/
def State.operationPart (s : State) : (Bool × List Chunk × Timers × Bool × AssocState × Bool) ×
    (Bool × U64 × List U64 × TsnWrapper × Option Ingress) :=
  ((s.pendingData, s.queue, s.timers, s.pendingAcknowledge, s.state, s.terminated),
    (s.lastReceivedTSNValid, s.lastReceivedTSN, s.receivedTSNs, s.wrapper, s.ingress))

theorem State.enqueue_of_terminated {s : State} (c : Chunk) (ht : s.terminated = true) : s.enqueue c = s := by
  rw [enqueue, enqueueResult, if_pos ht]

/-- On a terminated block no command changes a register R59 speaks of (46 R332). -/
theorem CommandDoes.frozen {s s' : State} (hc : CommandDoes s s') (ht : s.terminated = true)
    (htimers : s.timers = ⟨.idle, .idle, .idle⟩) : s'.operationPart = s.operationPart := by
  have hrunning : s.terminated = false → s'.operationPart = s.operationPart := fun h =>
    Bool.noConfusion (h.symm.trans ht)
  have hidle : ∀ i, (s.timer i).isArmed = true → s'.operationPart = s.operationPart := fun i h => by
    cases i <;> simp [State.timer, htimers, Slot.isArmed] at h
  cases hc
  case localPort p hw => exact hrunning (State.portsWritable_iff.1 hw).1
  case remotePort p hw => exact hrunning (State.portsWritable_iff.1 hw).1
  case associated h _ => exact hrunning h
  case aborted h => exact hrunning h
  case accepted rx h _ => exact hrunning h
  case packet h _ _ _ => exact hrunning h
  case enqueued c b => rw [State.enqueue_of_terminated c ht]; rfl
  case fireIgnored i => cases i <;> simp [State.operationPart, State.setTimer, State.raise, htimers]
  case initFire h _ => exact hidle .init h
  case cookieFire h _ => exact hidle .cookie h
  case sackFire h _ => exact hidle .sack h
  all_goals rfl

theorem OperationInv.frozen {s s' : State} (h : OperationInv s) (ht : s.terminated = true)
    (hstep : step s = .next s') : s'.operationPart = s.operationPart := by
  have hquiet := h.terminatedQuiet ht
  cases step_does hstep
  case idle => rfl
  case command c rest i hi hp hd hexec =>
    exact (exec_command_does (decodeCommand_code hd) hexec).2.frozen ht (h.terminatedEmpty ht).2
  case chunk hi _ _ => exact absurd (hquiet.symm.trans hi) nofun
  case param hi _ => exact absurd (hquiet.symm.trans hi) nofun
  case packetEnd hi _ => exact absurd (hquiet.symm.trans hi) nofun

/-! ## The invariant -/

/-- The invariant of a running block is its four parts; a terminated one is idle too. -/
theorem operationInv_of_parts {s : State} (hlevel : PendingLevel s) (htimers : TimersOwn s) (hwrap : WrapperAgrees s)
    (habove : AboveUnlessTerminated s)
    (hterm : s.terminated = true →
      (s.queue = [] ∧ s.timers = ⟨.idle, .idle, .idle⟩) ∧ s.state = .closed ∧ s.ingress = none) :
    OperationInv s where
  pendingDataLevel := hlevel
  sackTimerPending := htimers.sackPending
  trackerAbovePoint := habove
  initTimerState := htimers.initState
  cookieTimerState := htimers.cookieState
  sackTimerState h := htimers.pendingState (htimers.sackPending h)
  terminatedEmpty h := (hterm h).1
  wrapperMark := hwrap.mark
  wrapperWidths := hwrap.widths
  pendingEstablished := htimers.pendingState
  terminatedClosed h := (hterm h).2.1
  terminatedQuiet h := (hterm h).2.2

namespace OperationInv

variable {s s' : State} (h : OperationInv s)
include h

theorem timersOwn : TimersOwn s :=
  ⟨h.sackTimerPending, h.initTimerState, h.cookieTimerState, h.pendingEstablished⟩

theorem wrapperAgrees : WrapperAgrees s := ⟨h.wrapperMark, h.wrapperWidths⟩

theorem of_same (hpart : s'.operationPart = s.operationPart) : OperationInv s' := by
  simp only [State.operationPart, Prod.mk.injEq] at hpart
  obtain ⟨⟨hpd, hq, htm, hpa, hs, ht⟩, hv, hl, hm, hw, hg⟩ := hpart
  refine operationInv_of_parts (.of_same hpd hq h.pendingDataLevel) (.of_same htm hpa hs h.timersOwn)
    (.of_same hw h.wrapperAgrees) (.of_same ?_ h.trackerAbovePoint) fun ht' => ?_
  · rw [AboveUnlessTerminated.part, ht, hpa, hv, hl, hm, AboveUnlessTerminated.part]
  · rw [hq, htm, hs, hg]
    rw [ht] at ht'
    exact ⟨h.terminatedEmpty ht', h.terminatedClosed ht', h.terminatedQuiet ht'⟩

theorem step (hstep : Machine.step s = .next s') : OperationInv s' := by
  cases ht : s.terminated with
  | true => exact h.of_same (h.frozen ht hstep)
  | false =>
    refine operationInv_of_parts (PendingLevel.stepRelation.step hstep h.pendingDataLevel)
      (TimersOwn.stepRelation.step hstep h.timersOwn) (WrapperAgrees.stepRelation.step hstep h.wrapperAgrees)
      (AboveUnlessTerminated.stepRelation.step hstep h.trackerAbovePoint) fun ht' => ?_
    have ha := step_terminates hstep ht ht'
    exact ⟨⟨ha.queue, ha.timers⟩, ha.closed, ha.ingress⟩

end OperationInv

/-- After an Abort nothing is pending, so clause (c) as written asks for the multiset it found. -/
theorem Aborted.trackerAbovePoint_iff {s s' : State} (h : Aborted s s') : TrackerAbovePoint s' ↔
    (s.lastReceivedTSNValid = true → ∀ t ∈ s.receivedTSNs, s.lastReceivedTSN.toNat < t.toNat) := by
  rw [TrackerAbovePoint, h.valid, h.pending, h.point, h.tracker]
  exact ⟨fun habove hv => habove hv rfl, fun habove hv _ => habove hv⟩

theorem Rule59.step {s s' : State} (h : Rule59 s) (hstep : Machine.step s = .next s')
    (hwhen : s'.terminated = s.terminated ∨ s.pendingAcknowledge = false) : Rule59 s' := by
  have hinv := h.toOperationInv.step hstep
  refine ⟨hinv, ?_⟩
  cases ht' : s'.terminated with
  | false => exact hinv.trackerAbovePoint ht'
  | true =>
    cases ht : s.terminated with
    | true =>
      have hpart := h.frozen ht hstep
      simp only [State.operationPart, Prod.mk.injEq] at hpart
      obtain ⟨⟨-, -, -, hpa, -, -⟩, hv, hl, hm, -, -⟩ := hpart
      rw [TrackerAbovePoint, hpa, hv, hl, hm]
      exact h.trackerAsWritten
    | false =>
      have hpending : s.pendingAcknowledge = false := hwhen.resolve_left (by simp [ht, ht'])
      exact (step_terminates hstep ht ht').trackerAbovePoint_iff.2 fun hv => h.trackerAsWritten hv hpending

/-- Settles O54: before Abort by the four parts, after it because nothing changes, and Abort itself by what it leaves. -/
theorem stepKeepsOperationInv : Obligations.StepKeepsOperationInv := fun _ _ h hstep =>
  ⟨h.step hstep, fun hwhen hrule => hrule.step hstep hwhen,
    fun ht ht' => (step_terminates hstep ht ht').trackerAbovePoint_iff⟩

end Sys2Proof.Machine
end

section
/-! PROOFS. What every step keeps, fourth part: the byte spaces (10_state.md R46) and the parse cursor (R40, 44 R252).
Both follow from what a step can do to the packet in progress. -/

namespace Sys2Proof.Machine

/-! ## The packet in progress after a step -/

/-- What a step can make of the packet in progress. -/
inductive IngressDoes (s : State) : Option Ingress → Prop
  | still : s.ingress = none → IngressDoes s none
  | accepted (rx : List Byte) : s.ingress = none → 12 ≤ rx.length → IngressDoes s (some ⟨Space.ofBytes rx, 12, none⟩)
  | dropped (rx : Space) (pc : Nat) : s.ingress = some ⟨rx, pc, none⟩ → IngressDoes s (some ⟨rx, rx.size, none⟩)
  | passed (rx : Space) (pc : Nat) (c : RawChunk) : s.ingress = some ⟨rx, pc, none⟩ → pc + 4 ≤ rx.size →
      IngressDoes s (some ⟨rx, nextChunkAt rx pc c.length, none⟩)
  | opened (rx : Space) (pc : Nat) (c : RawChunk) (b : Building) (tail : List Byte) :
      s.ingress = some ⟨rx, pc, none⟩ → pc + 4 ≤ rx.size → c.lengthUsable = true → tail ≠ [] →
      IngressDoes s (some ⟨rx, pc, some ⟨b, ⟨0, tail⟩, nextChunkAt rx pc c.length⟩⟩)
  | closed (rx : Space) (pc : Nat) (q : ParamList) : s.ingress = some ⟨rx, pc, some q⟩ →
      IngressDoes s (some ⟨rx, q.next, none⟩)
  | more (rx : Space) (pc : Nat) (q : ParamList) (b : Building) (rd : Reader) : s.ingress = some ⟨rx, pc, some q⟩ →
      rd.left ≠ 0 → rd.p % 4 = 0 → IngressDoes s (some ⟨rx, pc, some ⟨b, rd, q.next⟩⟩)
  | ended (rx : Space) (pc : Nat) : s.ingress = some ⟨rx, pc, none⟩ → IngressDoes s none

/-- Only an accepted WritePacket puts a packet in progress, and only ReadPacket writes the TX space. -/
theorem CommandDoes.spaces {s s' : State} (hc : CommandDoes s s') :
    (s'.ingress = s.ingress ∨ ∃ rx : List Byte, 12 ≤ rx.length ∧ s'.ingress = some ⟨Space.ofBytes rx, 12, none⟩) ∧
    (s'.tx = s.tx ∨ s'.tx.wf = true) := by
  cases hc
  case accepted rx ht hlen => exact ⟨.inr ⟨rx, hlen, rfl⟩, .inl rfl⟩
  case noPacket tx => exact ⟨.inl rfl, .inr (Space.ofBytes_wf tx)⟩
  case packet sp wp rest ht hq hsp hrest => exact ⟨.inl rfl, .inr hsp⟩
  case associated => exact ⟨.inl (by simp [State.associate]), .inl (by simp [State.associate])⟩
  case aborted => exact ⟨.inl (by simp), .inl (by simp)⟩
  case enqueued c b => exact ⟨.inl (State.enqueue_ingress c s), .inl (State.enqueue_tx c s)⟩
  case fireIgnored i => exact ⟨.inl (State.setTimer_ingress i .idle s), .inl (State.setTimer_tx i .idle s)⟩
  case initFire =>
    obtain ⟨-, hg, htx⟩ := retry_keeps .init (buildInit (s.setTimer .init .idle)) (s.setTimer .init .idle)
    exact ⟨.inl hg, .inl htx⟩
  case cookieFire =>
    obtain ⟨-, hg, htx⟩ := retry_keeps .cookie (.cookieEcho 0 s.peerCookie) (s.setTimer .cookie .idle)
    exact ⟨.inl hg, .inl htx⟩
  case sackFire => exact ⟨.inl (State.acknowledge_ingress _), .inl (State.acknowledge_tx _)⟩
  all_goals exact ⟨.inl rfl, .inl rfl⟩

theorem step_spaces {s s' : State} (hstep : step s = .next s') :
    IngressDoes s s'.ingress ∧ (s'.tx = s.tx ∨ s'.tx.wf = true) := by
  cases step_does hstep
  case idle hi _ => exact ⟨hi ▸ .still hi, .inl rfl⟩
  case command c rest i hi hp hd hexec =>
    obtain ⟨hg, htx⟩ := (exec_command_does (decodeCommand_code hd) hexec).2.spaces
    refine ⟨?_, htx⟩
    rcases hg with hg | ⟨rx, hlen, hg⟩ <;> rw [hg]
    · exact hi ▸ .still hi
    · exact .accepted rx hi hlen
  case chunk rx pc t c hi hmore hdoes =>
    cases hdoes
    case unusable hc => exact ⟨.dropped rx pc hi, .inl rfl⟩
    case failed t' hc => exact ⟨.passed rx pc c hi hmore, .inl rfl⟩
    case record r hc =>
      rw [process_ingress, process_tx]
      exact ⟨.passed rx pc c hi hmore, .inl rfl⟩
    case opened b tail hc hne ht => exact ⟨.opened rx pc c b tail hi hmore hc hne, .inl rfl⟩
  case param rx pc q hi hdoes =>
    cases hdoes
    case failed t => exact ⟨.closed rx pc q hi, .inl rfl⟩
    case record b r hclose hkind =>
      rw [process_ingress, process_tx]
      exact ⟨.closed rx pc q hi, .inl rfl⟩
    case more b rd hkind hleft hmod hlt => exact ⟨.more rx pc q b rd hi hleft hmod, .inl rfl⟩
  case packetEnd rx pc hi hend =>
    obtain ⟨l, v, m, t, a, pd, q, ev, lg, hfinish⟩ := finishPacket_frame s
    rw [hfinish]
    exact ⟨.ended rx pc hi, .inl rfl⟩

/-! ## The byte spaces -/

/-- The packet's bytes are those before the step, or those of the WritePacket just accepted. -/
theorem IngressDoes.rx {s : State} {o : Option Ingress} (h : IngressDoes s o) {g' : Ingress} (hg' : o = some g') :
    (∃ g, s.ingress = some g ∧ g'.rx = g.rx) ∨ ∃ rx, g'.rx = Space.ofBytes rx := by
  cases h
  case still => cases hg'
  case ended => cases hg'
  case accepted rx _ _ => exact .inr ⟨rx, by cases hg'; rfl⟩
  case dropped hi => exact .inl ⟨_, hi, by cases hg'; rfl⟩
  case passed hi _ => exact .inl ⟨_, hi, by cases hg'; rfl⟩
  case opened hi _ _ _ => exact .inl ⟨_, hi, by cases hg'; rfl⟩
  case closed hi => exact .inl ⟨_, hi, by cases hg'; rfl⟩
  case more hi _ _ => exact .inl ⟨_, hi, by cases hg'; rfl⟩

/-- Settles O55: a byte space after a step is the one before it, or one freshly made. -/
theorem stepKeepsMemoryInv : Obligations.StepKeepsMemoryInv := by
  intro s s' h hstep
  obtain ⟨hg, htx⟩ := step_spaces hstep
  refine ⟨fun g' hg' => ?_, ?_⟩
  · rcases hg.rx hg' with ⟨g, hi, hrx⟩ | ⟨rx, hrx⟩ <;> rw [hrx]
    · exact h.rx g hi
    · exact Space.ofBytes_wf rx
  · rcases htx with htx | htx
    · rw [htx]
      exact h.tx
    · exact htx

/-! ## The cursor -/

/-- A chunk that starts on a boundary ends on one, or at the end of the packet (44 R252). -/
theorem nextChunkAt_mod {rx : Space} {pc : Nat} (h : pc % 4 = 0) (len : U16) :
    nextChunkAt rx pc len % 4 = 0 ∨ nextChunkAt rx pc len = rx.size := by
  have := pad4_spec len.toNat
  unfold nextChunkAt
  omega

theorem nextChunkAt_le (rx : Space) (pc : Nat) (len : U16) : nextChunkAt rx pc len ≤ rx.size := Nat.min_le_right _ _

theorem le_nextChunkAt {rx : Space} {pc : Nat} (h : pc ≤ rx.size) (len : U16) : pc ≤ nextChunkAt rx pc len :=
  Nat.le_min.2 ⟨Nat.le_add_right _ _, h⟩

theorem lt_nextChunkAt {rx : Space} {pc : Nat} (h : pc + 4 ≤ rx.size) {c : RawChunk} (hc : c.lengthUsable = true) :
    pc < nextChunkAt rx pc c.length := by
  have hlen : c.length.toNat = 4 + c.body.length := of_decide_eq_true hc
  have := pad4_spec c.length.toNat
  unfold nextChunkAt
  omega

/-- A cursor with a chunk header ahead of it is on a boundary. -/
theorem Ingress.cursorOk.mod {rx : Space} {pc : Nat} {q : Option ParamList} (h : Ingress.cursorOk ⟨rx, pc, q⟩)
    (hmore : pc + 4 ≤ rx.size) : pc % 4 = 0 := by
  obtain ⟨-, -, hmod | hend⟩ := h
  · exact hmod
  · dsimp only at hend
    omega

/-- The cursors of a packet in progress. -/
def Ingress.placed (g : Ingress) : Prop := g.cursorOk ∧ ∀ q, g.params = some q → q.cursorOk g

theorem CursorInv.placed {s : State} (h : CursorInv s) {g : Ingress} (hi : s.ingress = some g) : g.placed :=
  ⟨h.chunk g hi, fun q hq => h.param g q hi hq⟩

theorem Ingress.placed.of_chunk {rx : Space} {pc : Nat} (h : Ingress.cursorOk ⟨rx, pc, none⟩) :
    Ingress.placed ⟨rx, pc, none⟩ := ⟨h, nofun⟩

theorem Ingress.placed.of_param {rx : Space} {pc : Nat} {q : ParamList} (h : Ingress.cursorOk ⟨rx, pc, some q⟩)
    (hq : q.cursorOk ⟨rx, pc, some q⟩) : Ingress.placed ⟨rx, pc, some q⟩ :=
  ⟨h, fun _ he => Option.some.inj he ▸ hq⟩

/-- The cursors are in place after a step, and they have not gone back. -/
theorem IngressDoes.placed {s : State} {o : Option Ingress} (h : IngressDoes s o) (hinv : CursorInv s) {g' : Ingress}
    (hg' : o = some g') : g'.placed ∧ ∀ g, s.ingress = some g → g'.rx = g.rx ∧ g.pc ≤ g'.pc := by
  have hahead : ∀ {g₀ g₁ : Ingress}, s.ingress = some g₀ → g₁.rx = g₀.rx → g₀.pc ≤ g₁.pc →
      ∀ g, s.ingress = some g → g₁.rx = g.rx ∧ g.pc ≤ g₁.pc :=
    fun hi hrx hle g hg => Option.some.inj (hi.symm.trans hg) ▸ ⟨hrx, hle⟩
  cases h
  case still => cases hg'
  case ended => cases hg'
  case accepted rx hi hlen =>
    cases hg'
    exact ⟨.of_chunk ⟨Nat.le_refl _, hlen, .inl (show 12 % 4 = 0 by decide)⟩, fun g hg => absurd (hi.symm.trans hg) nofun⟩
  case dropped rx pc hi =>
    obtain ⟨⟨hlow, hhigh, -⟩, -⟩ := hinv.placed hi
    cases hg'
    exact ⟨.of_chunk ⟨hlow.trans hhigh, Nat.le_refl _, .inr rfl⟩, hahead hi rfl hhigh⟩
  case passed rx pc c hi hmore =>
    obtain ⟨hok, -⟩ := hinv.placed hi
    have hle : pc ≤ nextChunkAt rx pc c.length := le_nextChunkAt hok.2.1 _
    cases hg'
    exact ⟨.of_chunk ⟨hok.1.trans hle, nextChunkAt_le _ _ _, nextChunkAt_mod (hok.mod hmore) _⟩, hahead hi rfl hle⟩
  case opened rx pc c b tail hi hmore hc hne =>
    obtain ⟨hok, -⟩ := hinv.placed hi
    cases hg'
    exact ⟨.of_param hok ⟨List.length_pos_iff.2 hne, rfl, lt_nextChunkAt hmore hc, nextChunkAt_le _ _ _,
      nextChunkAt_mod (hok.mod hmore) _⟩, hahead hi rfl (Nat.le_refl _)⟩
  case closed rx pc q hi =>
    obtain ⟨⟨hlow, -, -⟩, hq⟩ := hinv.placed hi
    obtain ⟨-, -, hlt, hsize, hmod⟩ := hq q rfl
    cases hg'
    exact ⟨.of_chunk ⟨hlow.trans hlt.le, hsize, hmod⟩, hahead hi rfl hlt.le⟩
  case more rx pc q b rd hi hleft hmod =>
    obtain ⟨hok, hq⟩ := hinv.placed hi
    obtain ⟨-, -, hnext⟩ := hq q rfl
    cases hg'
    exact ⟨.of_param hok ⟨Nat.pos_of_ne_zero hleft, hmod, hnext⟩, hahead hi rfl (Nat.le_refl _)⟩

/-- Settles O56: each way a packet in progress goes on keeps its bytes and moves its cursors to places they may have. -/
theorem stepKeepsCursorInv : Obligations.StepKeepsCursorInv := by
  intro s s' h hstep
  obtain ⟨hg, -⟩ := step_spaces hstep
  exact ⟨⟨fun _ hg' => (hg.placed h hg').1.1, fun _ q hg' => (hg.placed h hg').1.2 q⟩,
    fun g _ hi hg' => (hg.placed h hg').2 g hi⟩

end Sys2Proof.Machine
end

section
/-! PROOFS. The transition table (47_association_dispatch.md R366): which records move the state register, which chunk and
parameter instructions can hand such a record to `Process`, and which commands move the register. -/

/-- A record whose row of R350, if it has one, leaves the state register alone. -/
def Sys2Proof.Chunk.inert : Sys2Proof.Chunk → Bool
  | .cookieEcho _ _ | .cookieAck _ | .initAck _ _ (some _) => false
  | _ => true

namespace Sys2Proof.Machine

/-! ## The records that move the state register -/

theorem processInit_state (r : InitRec) (s : State) : (processInit r s).state = s.state := by
  obtain ⟨tag, tsn, draws, n, c, -, h⟩ := processInit_eq r s
  rw [h, State.enqueue_state]

theorem process_state_of_inert {r : Chunk} (hr : r.inert = true) (s : State) : (process r s).state = s.state := by
  generalize hp : process r s = s'
  cases r
  case init f r life =>
    rw [← hp, process]
    split
    · exact processInit_state r s
    · rfl
  case initAck f r ck =>
    cases ck with
    | none => rw [← hp, process_initAck_noCookie]; rfl
    | some x => cases hr
  case data f r =>
    rw [← hp, process]
    split <;> rfl
  case cookieEcho => cases hr
  case cookieAck => cases hr
  all_goals exact hp ▸ rfl

theorem process_cookieEcho_moves {f : Byte} {x : List Byte} {s : State}
    (h : (process (.cookieEcho f x) s).state ≠ s.state) :
    s.state = .closed ∧ (process (.cookieEcho f x) s).state = .established := by
  by_cases hs : s.state = .closed
  · exact ⟨hs, by rw [process_cookieEcho hs]; rfl⟩
  · exact absurd (by rw [process, if_neg hs]; rfl) h

theorem process_cookieAck_moves {f : Byte} {s : State} (h : (process (.cookieAck f) s).state ≠ s.state) :
    s.state = .cookieEchoed ∧ (process (.cookieAck f) s).state = .established := by
  by_cases hs : s.state = .cookieEchoed
  · exact ⟨hs, by rw [process_cookieAck hs]; rfl⟩
  · exact absurd (by rw [process, if_neg hs]; rfl) h

theorem process_initAck_moves {f : Byte} {r : InitRec} {x : List Byte} {s : State}
    (h : (process (.initAck f r (some x)) s).state ≠ s.state) :
    s.state = .cookieWait ∧ (process (.initAck f r (some x)) s).state = .cookieEchoed := by
  by_cases hs : s.state = .cookieWait
  · exact ⟨hs, by rw [process_initAck hs]; rfl⟩
  · exact absurd (by rw [process, if_neg hs]; rfl) h

/-! ## Chunk instructions -/

/-- A chunk parsed whole moves the state register only through its record. -/
theorem runChunk_moves {t : Byte} {c : RawChunk} {rec : Option Chunk} {s s' : State}
    (h : runChunk t c rec s = .next s') (hne : s'.state ≠ s.state) :
    ∃ r rx next, rec = some r ∧ s' = process r (s.atChunk rx next) := by
  obtain ⟨rx, pc, hi, -⟩ := runChunk_does h
  cases hc : c.lengthUsable with
  | false =>
    rw [runChunk_unusable hi t hc] at h
    cases h
    exact absurd rfl hne
  | true =>
    cases rec with
    | none =>
      rw [runChunk_malformed hi t hc] at h
      cases h
      exact absurd rfl hne
    | some r =>
      rw [runChunk_record hi t hc] at h
      cases h
      exact ⟨r, rx, _, rfl, rfl⟩

theorem runChunk_state_of_inert {t : Byte} {c : RawChunk} {rec : Option Chunk} {s s' : State}
    (hr : ∀ r, rec = some r → r.inert = true) (h : runChunk t c rec s = .next s') : s'.state = s.state := by
  by_contra hne
  obtain ⟨r, rx, next, hrec, rfl⟩ := runChunk_moves h hne
  exact hne (process_state_of_inert (hr r hrec) _)

/-- A chunk with a parameter list moves it only when its fixed part is already a whole record. -/
theorem openChunk_state_of_inert {t : Byte} {c : RawChunk} {start : Option (Building × List Byte)} {s s' : State}
    (hb : ∀ b tail r, start = some (b, tail) → b.close = some r → r.inert = true)
    (h : openChunk t c start s = .next s') : s'.state = s.state := by
  match hi : s.ingress with
  | none => simp [openChunk, hi] at h
  | some ⟨_, _, some _⟩ => simp [openChunk, hi] at h
  | some ⟨rx, pc, none⟩ =>
    cases hc : c.lengthUsable with
    | false =>
      rw [openChunk_unusable hi t hc] at h
      cases h
      rfl
    | true =>
      match start with
      | none =>
        rw [openChunk_malformed hi t hc] at h
        cases h
        rfl
      | some (b, tail) =>
        rw [openChunk_start hi t hc] at h
        cases h
        unfold continueParams
        split
        · unfold closeParams
          dsimp only
          split
          next r hr => rw [process_state_of_inert (hb b tail r rfl hr), State.resumeAt_state]
          next => exact State.takeError_state _ _ s
        · rfl

theorem parseData_inert {f : Byte} {b : List Byte} {r : Chunk} (h : parseData f b = some r) : r.inert = true := by
  simp only [parseData, Option.ite_none_left_eq_some, Option.bind_eq_bind, Option.bind_eq_some_iff,
    Option.some.injEq] at h
  obtain ⟨-, _, -, _, -, _, -, _, -, _, -, rfl⟩ := h
  rfl

theorem parseSack_inert {f : Byte} {b : List Byte} {r : Chunk} (h : parseSack f b = some r) : r.inert = true := by
  simp only [parseSack, Option.ite_none_left_eq_some, Option.bind_eq_bind, Option.bind_eq_some_iff,
    Option.some.injEq] at h
  obtain ⟨-, _, -, _, -, _, -, _, -, -, _, -, _, -, rfl⟩ := h
  rfl

theorem parseShutdown_inert {f : Byte} {b : List Byte} {r : Chunk} (h : parseShutdown f b = some r) :
    r.inert = true := by
  simp only [parseShutdown, Option.ite_none_left_eq_some, Option.bind_eq_bind, Option.bind_eq_some_iff,
    Option.some.injEq] at h
  obtain ⟨-, _, -, rfl⟩ := h
  rfl

theorem parseEmpty_eq_some {r r' : Chunk} {b : List Byte} (h : parseEmpty r b = some r') : r' = r := by
  simp only [parseEmpty, Option.ite_none_right_eq_some, Option.some.injEq] at h
  exact h.2.symm

/-- The start of a parameter list holds no state cookie, so an INIT-ACK without a parameter has none (R354). -/
theorem openInit_inert {f : Byte} {b : List Byte} {x : Building} {tail : List Byte} {r : Chunk}
    (h : openInit f b = some (x, tail)) (hr : x.close = some r) : r.inert = true := by
  simp only [openInit, Option.map_eq_some_iff, Prod.mk.injEq] at h
  obtain ⟨_, _, rfl, _⟩ := h
  cases hr
  rfl

theorem openInitAck_inert {f : Byte} {b : List Byte} {x : Building} {tail : List Byte} {r : Chunk}
    (h : openInitAck f b = some (x, tail)) (hr : x.close = some r) : r.inert = true := by
  simp only [openInitAck, Option.map_eq_some_iff, Prod.mk.injEq] at h
  obtain ⟨_, _, rfl, _⟩ := h
  cases hr
  rfl

theorem openHeartbeat_inert {f : Byte} {b : List Byte} {x : Building} {tail : List Byte} {r : Chunk}
    (h : openHeartbeat f b = some (x, tail)) (hr : x.close = some r) : r.inert = true := by
  simp only [openHeartbeat, Option.ite_none_left_eq_some, Option.some.injEq, Prod.mk.injEq] at h
  obtain ⟨_, rfl, _⟩ := h
  cases hr

theorem openHeartbeatAck_inert {f : Byte} {b : List Byte} {x : Building} {tail : List Byte} {r : Chunk}
    (h : openHeartbeatAck f b = some (x, tail)) (hr : x.close = some r) : r.inert = true := by
  simp only [openHeartbeatAck, Option.ite_none_left_eq_some, Option.some.injEq, Prod.mk.injEq] at h
  obtain ⟨_, rfl, _⟩ := h
  cases hr

/-- Of the chunk instructions only COOKIE-ECHO and COOKIE-ACK move the state register. -/
theorem exec_chunk_moves {i : Instr} {s s' : State} {t : Byte} {c : RawChunk}
    (ho : i.chunkOperands s.params.codes = some (t, c)) (h : exec i s = .next s') (hne : s'.state ≠ s.state) :
    (i = .cookieEcho c ∧ s.state = .closed ∧ s'.state = .established) ∨
    (i = .cookieAck c ∧ s.state = .cookieEchoed ∧ s'.state = .established) := by
  have hwhole : ∀ {t c} {rec : Option Chunk}, runChunk t c rec s = .next s' → ¬ ∀ r, rec = some r → r.inert = true :=
    fun hrun hinert => hne (runChunk_state_of_inert hinert hrun)
  have hlist : ∀ {t c} {start : Option (Building × List Byte)}, openChunk t c start s = .next s' →
      ¬ ∀ b tail r, start = some (b, tail) → b.close = some r → r.inert = true :=
    fun hrun hinert => hne (openChunk_state_of_inert hinert hrun)
  cases i <;> simp only [Instr.chunkOperands, Option.some.injEq, Prod.mk.injEq, reduceCtorEq] at ho
  all_goals obtain ⟨rfl, rfl⟩ := ho
  case cookieEcho c =>
    rw [exec, execCookieEcho] at h
    obtain ⟨r, rx, next, hr, rfl⟩ := runChunk_moves h hne
    cases hr
    exact .inl ⟨rfl, process_cookieEcho_moves (s := s.atChunk rx next) hne⟩
  case cookieAck c =>
    rw [exec, execCookieAck] at h
    obtain ⟨r, rx, next, hr, rfl⟩ := runChunk_moves h hne
    obtain rfl := parseEmpty_eq_some hr
    exact .inr ⟨rfl, process_cookieAck_moves (s := s.atChunk rx next) hne⟩
  case init c => exact absurd (fun _ _ _ => openInit_inert) (hlist h)
  case initAck c => exact absurd (fun _ _ _ => openInitAck_inert) (hlist h)
  case heartbeat c => exact absurd (fun _ _ _ => openHeartbeat_inert) (hlist h)
  case heartbeatAck c => exact absurd (fun _ _ _ => openHeartbeatAck_inert) (hlist h)
  case data c => exact absurd (fun _ => parseData_inert) (hwhole h)
  case sack c => exact absurd (fun _ => parseSack_inert) (hwhole h)
  case shutdown c => exact absurd (fun _ => parseShutdown_inert) (hwhole h)
  case shutdownAck c => exact absurd (fun _ hr => parseEmpty_eq_some hr ▸ rfl) (hwhole h)
  case shutdownComplete c => exact absurd (fun _ hr => parseEmpty_eq_some hr ▸ rfl) (hwhole h)
  all_goals
    simp only [exec, execAbortChunk, execError, execReConfig, execPadding, execForwardTSN, execUnknown] at h
    exact absurd (fun _ hr => Option.some.inj hr ▸ rfl) (hwhole h)

/-! ## Parameter instructions -/

/-- A parameter moves the state register only by completing an INIT-ACK (log 2). -/
theorem exec_param_moves {i : Instr} {s s' : State} {p : U16 × RawParam}
    (ho : i.paramOperands s.params.codes = some p) (h : exec i s = .next s') (hne : s'.state ≠ s.state) :
    ∃ rx pc f r ck rd next, s.ingress = some ⟨rx, pc, some ⟨.initAck f r ck, rd, next⟩⟩ ∧
      s'.ingress = some ⟨rx, next, none⟩ ∧ s.state = .cookieWait ∧ s'.state = .cookieEchoed := by
  obtain ⟨rx, pc, ⟨building, rd, next⟩, hi, hdoes⟩ := exec_param_does ho h
  cases hdoes
  case failed t => exact absurd rfl hne
  case more b rd' hkind hleft hmod hlt => exact absurd rfl hne
  case record b r hclose hkind =>
    have hmoves : r.inert = false := by
      rw [← Bool.not_eq_true]
      exact fun hinert => hne (process_state_of_inert hinert _)
    cases b
    case init => cases hclose; cases hmoves
    case heartbeat f info => cases info <;> cases hclose; cases hmoves
    case heartbeatAck f info => cases info <;> cases hclose; cases hmoves
    case initAck f r' ck =>
      cases hclose
      cases ck with
      | none => cases hmoves
      | some x =>
        cases building <;> cases hkind
        exact ⟨rx, pc, _, _, _, rd, next, hi, process_ingress _ _,
          process_initAck_moves (s := s.atChunk rx next) hne⟩

/-! ## Commands -/

section
variable {s s' : State} (hi : s.ingress = none)
include hi

theorem exec_writePacket_state {rx : List Byte} (h : exec (.writePacket rx) s = .next s') : s'.state = s.state := by
  cases ht : s.terminated with
  | true => rw [exec_writePacket_terminated hi ht] at h; cases h; rfl
  | false =>
    cases he : headerError (Space.ofBytes rx) s with
    | some e => rw [exec_writePacket_rejected hi ht he] at h; cases h; rfl
    | none => rw [exec_writePacket_accepted hi ht he] at h; cases h; rfl

theorem exec_readPacket_state {tx : List Byte} (h : exec (.readPacket tx) s = .next s') : s'.state = s.state := by
  rw [exec, execReadPacket, betweenOperations_none hi] at h
  dsimp only at h
  split at h
  · split at h <;> cases h
    rfl
  · cases h
    rfl

theorem exec_timerFireSack_state (h : exec .timerFireSack s = .next s') : s'.state = s.state := by
  rw [exec, execTimerFireSack, fireTimer_cases hi] at h
  cases h
  split
  · rfl
  split
  · exact State.acknowledge_state _
  · rfl

end

theorem retry_state (i : TimerId) (c : Chunk) (s : State) : (retry i c s).state = s.state ∨
    (s.params.maxInitRetransmits ≤ s.initRetransmissions ∧ (retry i c s).state = .closed) := by
  rcases Nat.lt_or_ge s.initRetransmissions s.params.maxInitRetransmits with hlt | hge
  · rw [retry_below hlt]
    exact .inl (by simp)
  · rw [retry_ceiling hge]
    exact .inr ⟨hge, rfl⟩

/-- A retry timer moves the state register only at the ceiling, in its own state (60 R421, R422). -/
theorem fireTimer_moves {s s' : State} (hi : s.ingress = none) {i : TimerId} {own : AssocState} {c : State → Chunk}
    (h : fireTimer i own (fun s => retry i (c s) s) s = .next s') (hne : s'.state ≠ s.state) :
    s.params.maxInitRetransmits ≤ s.initRetransmissions ∧ s.state = own ∧ s'.state = .closed := by
  rw [fireTimer_cases hi] at h
  cases h
  split at hne
  · exact absurd rfl hne
  split at hne
  next harmed hown =>
    rw [if_neg harmed, if_pos hown]
    rcases retry_state i (c (s.setTimer i .idle)) (s.setTimer i .idle) with hs | ⟨hge, hs⟩
    · exact absurd (hs.trans (State.setTimer_state i .idle s)) hne
    · exact ⟨by simpa using hge, hown, hs⟩
  next => exact absurd (State.setTimer_state i .idle s) hne

/-- Of the commands only `Associate`, the two retry timers and `Abort` move the state register. -/
theorem exec_command_moves {i : Instr} {s s' : State} {k : Byte} (hk : i.commandCode = some k)
    (h : exec i s = .next s') (hne : s'.state ≠ s.state) :
    (i = .associate ∧ s.state = .closed ∧ s'.state = .cookieWait) ∨
    (i = .timerFireInit ∧ s.params.maxInitRetransmits ≤ s.initRetransmissions ∧ s.state = .cookieWait ∧
      s'.state = .closed) ∨
    (i = .timerFireCookie ∧ s.params.maxInitRetransmits ≤ s.initRetransmissions ∧ s.state = .cookieEchoed ∧
      s'.state = .closed) ∨
    (i = .abort ∧ s'.state = .closed ∧ s'.terminated = true) := by
  obtain ⟨hi, -⟩ := exec_command_does hk h
  cases i <;> simp only [Instr.commandCode, reduceCtorEq] at hk
  case setLocalPort p =>
    rw [exec_setLocalPort hi] at h
    cases h
    exact absurd (by split <;> rfl) hne
  case setRemotePort p =>
    rw [exec_setRemotePort hi] at h
    cases h
    exact absurd (by split <;> rfl) hne
  case associate =>
    by_cases hopen : s.terminated = true ∨ s.state ≠ .closed
    · rw [exec_associate_ignored hi hopen] at h
      cases h
      exact absurd rfl hne
    · simp only [not_or, Bool.not_eq_true, not_not] at hopen
      rw [exec_associate_opens hi hopen.1 hopen.2] at h
      cases h
      exact .inl ⟨rfl, hopen.2, rfl⟩
  case abort =>
    cases ht : s.terminated with
    | true =>
      rw [exec_abort_terminated hi ht] at h
      cases h
      exact absurd rfl hne
    | false =>
      rw [exec_abort_running hi ht] at h
      cases h
      exact .inr (.inr (.inr ⟨rfl, rfl, rfl⟩))
  case enqueue c =>
    rw [exec_enqueue hi] at h
    cases h
    exact absurd (State.enqueue_state c s) hne
  case writePacket rx => exact absurd (exec_writePacket_state hi h) hne
  case readPacket tx => exact absurd (exec_readPacket_state hi h) hne
  case getState =>
    rw [exec, execGetState, betweenOperations_none hi] at h
    cases h
    exact absurd rfl hne
  case getPendingData =>
    rw [exec, execGetPendingData, betweenOperations_none hi] at h
    cases h
    exact absurd rfl hne
  case timerFireInit => exact .inr (.inl ⟨rfl, fireTimer_moves (i := .init) (c := buildInit) hi h hne⟩)
  case timerFireCookie =>
    exact .inr (.inr (.inl ⟨rfl, fireTimer_moves (i := .cookie) (c := fun s => .cookieEcho 0 s.peerCookie) hi h hne⟩))
  case timerFireSack => exact absurd (exec_timerFireSack_state hi h) hne

/-- Every instruction is a chunk, a parameter or a command. -/
theorem instr_kind (k : Codes) (i : Instr) :
    (∃ t c, i.chunkOperands k = some (t, c)) ∨ (∃ p, i.paramOperands k = some p) ∨ ∃ x, i.commandCode = some x := by
  cases i <;> simp [Instr.chunkOperands, Instr.paramOperands, Instr.commandCode]

/-- Settles O60: the instructions in their three groups, each moving the register only by an entry of the table. -/
theorem transitionRelation : Obligations.TransitionRelation := by
  intro i s s' h hne
  rcases instr_kind s.params.codes i with ⟨t, c, hc⟩ | ⟨p, hp⟩ | ⟨k, hk⟩
  · rcases exec_chunk_moves hc h hne with ⟨hi, hs⟩ | ⟨hi, hs⟩
    · exact .inr (.inl ⟨c, hi, hs⟩)
    · exact .inr (.inr (.inr (.inl ⟨c, hi, hs⟩)))
  · obtain ⟨rx, pc, f, r, ck, rd, next, hmoves⟩ := exec_param_moves hp h hne
    exact .inr (.inr (.inl ⟨p, rx, pc, f, r, ck, rd, next, hp, hmoves⟩))
  · rcases exec_command_moves hk h hne with hopen | hinit | hcookie | habort
    · exact .inl hopen
    · exact .inr (.inr (.inr (.inr (.inl hinit))))
    · exact .inr (.inr (.inr (.inr (.inr (.inl hcookie)))))
    · exact .inr (.inr (.inr (.inr (.inr (.inr habort)))))

end Sys2Proof.Machine
end

section
/-! PROOFS. Reset (10_state.md R57, R58): its values, and that every invariant starts with them. -/

namespace Sys2Proof.Machine

/-- Settles O52: the values of `State.reset`, register by register. -/
theorem resetValues : Obligations.ResetValues := by
  refine ⟨rfl, rfl, rfl, rfl, rfl, rfl, rfl, rfl, rfl, rfl, rfl, rfl, rfl, rfl, rfl, rfl, rfl, rfl, rfl, rfl, rfl, rfl, rfl,
    rfl, rfl, rfl, rfl, rfl, rfl, rfl, rfl⟩

/-- At reset every timer is idle, nothing is pending and the block is not terminated. -/
theorem reset_operationInv : OperationInv State.reset :=
  operationInv_of_parts rfl ⟨nofun, nofun, nofun, nofun⟩ ⟨by decide, by decide⟩ (fun _ => nofun) nofun

theorem reset_ingress (g : Ingress) : State.reset.ingress ≠ some g := Option.some_ne_none g ∘ Eq.symm

theorem reset_queueInv : QueueInv State.reset where
  wellFormed _ hc := absurd hc List.not_mem_nil
  bounded _ _ := Nat.zero_le _

/-- Settles O53: reset has the invariant of every operation, and what the others speak of is empty or idle. -/
theorem resetKeepsInvariants : Obligations.ResetKeepsInvariants :=
  ⟨reset_operationInv.rule59 rfl, ⟨fun g hg => absurd hg (reset_ingress g), reset_spaces.1⟩,
    ⟨fun g hg => absurd hg (reset_ingress g), fun g _ hg => absurd hg (reset_ingress g)⟩, reset_queueInv, .nil,
    .of_written (by simp [State.reset]), fun h => h.elim AssocState.noConfusion AssocState.noConfusion,
    Codes.default_distinct⟩

end Sys2Proof.Machine
end
